-- ==== Sys2Proof/Word.lean ====
section
/-! DEFINITION. The word types of the Manager (00_scope.md R11) and their plainest helpers. -/

namespace Sys2Proof

/-- `REG_W`, `COUNT_W`, `SIZE_W`, `BUDGET_W`: 32 bits (R11). -/
abbrev Word := BitVec 32

/-- One byte of coherent memory (R65). -/
abbrev Byte := BitVec 8

/-- `PA_W`: a physical address has 40 bits (R11). -/
abbrev PAddr := BitVec 40

/-- `VA_W`: a host virtual address has 64 bits and is an opaque cookie (R11, R68). -/
abbrev VAddr := BitVec 64

/-- `MASK_W`: a ring-class bitmask has 8 bits (R11). -/
abbrev Mask := BitVec 8

/-- `HANDLE_W`: an engine-ring or interrupt handle; 0 means "no handle" (R11). -/
abbrev Handle := BitVec 32

/-- A one-bit field as a register word. -/
def flagWord (b : Bool) : Word := if b then 1 else 0

end Sys2Proof
end

