-- ==== Sys2Proof/Config.lean ====
section
/-! DEFINITION. What is fixed for one Manager (00_scope.md R10 to R15, 20_memory.md R74), the moves of the environment (R8, R9, R101), and
the free values: opaque constants, so that no proof can see what they are. -/

namespace Sys2Proof

/-- The dispatcher mode strap: `EVENT = 0`, `POLL = 1` (R14, R175). -/
inductive Mode where
  | event
  | poll
deriving DecidableEq, Repr, Inhabited

/-- One record of the class table `CLASS[k]` (R12). `entrySize` has the 16 bits of the Ring record's field (R33). -/
structure ClassConfig where
  valid : Bool := false
  entrySize : BitVec 16 := 0
  align : Nat := 8
  bufferSupply : Bool := false
  maxInst : Nat := 1
deriving DecidableEq, Repr, Inhabited

/-- One row of `INT_MASK_TABLE` (R14): the five masks of one context. -/
structure MaskRow where
  tx : Mask := 0
  rxDst : Mask := 0
  rxExc : Mask := 0
  rxRel : Mask := 0
  reo : Mask := 0
deriving DecidableEq, Repr, Inhabited

/-- The parameters of one Manager, constant while it runs (R10 to R14, R74). The mode strap stands in the machine's state,
because reset samples it (R283). -/
structure Config where
  /-- `MGR_BASE`: the address of the register window's first byte in the host's register space. The spec leaves it open, and
  no rule depends on it (R26, R74). -/
  mgrBase : Nat
  /-- `CLASS[k]`, `k` in `0 .. 15` (R12). -/
  classes : Vector ClassConfig 16
  avgTidsPerClient : Nat
  avgMpdusPerTid : Nat
  avgFlowsPerTid : Nat
  avgMsdusPerFlow : Nat
  avgMsdusPerMpdu : Nat
  mpduLinksPerQueueDesc : Nat
  mpdusPerLinkDesc : Nat
  msdusPerLinkDesc : Nat
  linkDescSize : Nat
  linkDescAlign : Nat
  maxAllocSize : Nat
  maxLinkDescBanks : Nat
  scatterBufSize : Nat
  maxScatterBufs : Nat
  numCtx : Nat
  numTxRings : Nat
  numRxRings : Nat
  numRxBufRings : Nat
  /-- `INT_MASK_TABLE`; only the rows of contexts below `NUM_CTX` are read (R14, R172). -/
  intMaskTable : Vector MaskRow 16
  intrTimerThres : Word
  defaultEventBudget : Word
  defaultPollPeriod : Word
deriving DecidableEq, Repr

namespace Config

/-- The class table of the column REF of R12. -/
def refClasses : Vector ClassConfig 16 :=
  #v[⟨true, 32, 8, false, 3⟩, ⟨true, 32, 8, false, 4⟩, ⟨true, 32, 8, false, 1⟩, ⟨true, 32, 8, false, 1⟩,
     ⟨true, 64, 8, false, 1⟩, ⟨true, 8, 8, false, 1⟩, ⟨true, 8, 8, true, 1⟩, {}, {}, {}, {}, {}, {}, {}, {}, {}]

/-- The REF mask table (95_test_vectors.md section 1). -/
def refMasks : Vector MaskRow 16 :=
  #v[⟨1, 1, 1, 0, 0⟩, ⟨2, 2, 0, 1, 0⟩, ⟨4, 4, 0, 0, 1⟩, ⟨0, 8, 0, 0, 0⟩, {}, {}, {}, {}, {}, {}, {}, {}, {}, {}, {}, {}]

/-- The reference configuration REF (R12 to R14, 95_test_vectors.md section 1); it gives `MGR_BASE` no value (log 1). -/
def ref : Config where
  mgrBase := 0
  classes := refClasses
  avgTidsPerClient := 2
  avgMpdusPerTid := 128
  avgFlowsPerTid := 2
  avgMsdusPerFlow := 128
  avgMsdusPerMpdu := 4
  mpduLinksPerQueueDesc := 12
  mpdusPerLinkDesc := 6
  msdusPerLinkDesc := 7
  linkDescSize := 128
  linkDescAlign := 128
  maxAllocSize := 0x200000
  maxLinkDescBanks := 64
  scatterBufSize := 0x8000
  maxScatterBufs := 64
  numCtx := 4
  numTxRings := 3
  numRxRings := 4
  numRxBufRings := 1
  intMaskTable := refMasks
  intrTimerThres := 8
  defaultEventBudget := 64
  defaultPollPeriod := 1

/-- The configuration TINY: the pool parameters of the column TINY of R13, everything else as REF. -/
def tiny : Config :=
  { ref with
    avgTidsPerClient := 1
    avgMpdusPerTid := 4
    avgFlowsPerTid := 1
    avgMsdusPerFlow := 4
    avgMsdusPerMpdu := 2
    mpduLinksPerQueueDesc := 2
    mpdusPerLinkDesc := 2
    msdusPerLinkDesc := 2
    linkDescSize := 16
    linkDescAlign := 16
    maxAllocSize := 128
    maxLinkDescBanks := 8
    scatterBufSize := 64
    maxScatterBufs := 8 }

end Config

/-- One move of the world around the Manager, or one agent's turn. R8 gives each agent steps of its own and R9 leaves their
order free; the state lists the moves to come. -/
inductive Move where
  /-- Whole-system reset, sampling the mode strap (R280, R281, R283). -/
  | reset (strap : Mode)
  /-- The host writes `value`, `width` bytes wide, at `address` of the register space (R26, R72, R74). -/
  | hostWrite (width address : Nat) (value : Word)
  /-- The host reads `width` bytes at `address` of the register space (R26, R72, R74). -/
  | hostRead (width address : Nat)
  /-- The engine raises the interrupt event of a source (R250, R251). -/
  | irq (source : Nat)
  /-- The host's timer fires (R257). -/
  | timerFire
  /-- `SEQ` runs the accepted command until it completes or is held, no other agent between its steps. -/
  | command
  /-- `SEQ` takes one step of the accepted command. -/
  | seq
  /-- `SVC[ctx]` takes one step (R254). -/
  | svc (ctx : Nat)
  /-- `POLL` takes one step (R257). -/
  | poll
  /-- The engine or a handler writes a byte of coherent memory on its own account (R66). -/
  | extWrite (addr : PAddr) (value : Byte)
  /-- The `.alloc` line of a script: the reference allocator's answers, in place of those an earlier line left
  (R101, R227; DESIGN CHOICE, log 30). -/
  | refAlloc (answers : List Bool)
  /-- The `.engine` line of a script: the reference engine's answers, in place of those an earlier line left
  (R101, R227; DESIGN CHOICE, log 30). -/
  | refEngine (answers : List Bool)
  /-- One pair of a `.pending` line: the reference handler's queue length of a ring id (R101, R226). -/
  | refPending (ring count : Nat)
deriving DecidableEq, Repr, Inhabited

namespace Config

/-! Free values: draws of R9 where no answer is listed, and one value the spec does not state. Each has no body. -/

/-- Which move comes when none is listed (R9 (d), (e)); the argument counts such moves. -/
opaque freeMove : Nat → Move

/-- What the allocator answers when no answer is listed (R9 (a), R210); the argument counts the draws. -/
opaque freeAlloc : Nat → Option (VAddr × PAddr)

/-- What the engine answers to a registration when no answer is listed (R9 (b), R217). -/
opaque freeRegister : Nat → Option Handle

/-- What the engine answers to a publication when no answer is listed (R9 (b), R222, R223). -/
opaque freePublish : Nat → Bool

/-- The handle the host answers to an interrupt registration when none is listed (R213). -/
opaque freeIrqHandle : Nat → Handle

/-- The work a handler reports when no answer is listed (R9 (c), R225). -/
opaque freeWork : Nat → Word

/-- The virtual base address when `raw_va + slack` does not fit 64 bits: R33 and R68 state no value there. -/
opaque freeBaseVa : VAddr → Nat → VAddr

end Config

end Sys2Proof
end

