-- ==== Sys2Proof/Syntax.lean ====
section
/-! DEFINITION. The commands of the Manager: one constructor per row of spec/opcode_table.json (30_encoding.md R96). -/

namespace Sys2Proof

/-- A command as its word carries it (R91, R96). Operands are the unsigned numbers of the word's fields (R93); the scalar
operand stands in `ARG0` and is no part of the word. -/
inductive Instr where
  /-- `NOP` (R125). -/
  | nop
  /-- `RING_SETUP cls inst owner`, entry count in `ARG0` (R110). -/
  | ringSetup (cls inst owner : Nat)
  /-- `RING_CLEANUP cls inst` (R118). -/
  | ringCleanup (cls inst : Nat)
  /-- `LINK_POOL_SETUP`, `max_clients` in `ARG0` (R130). -/
  | linkPoolSetup
  /-- `LINK_POOL_CLEANUP` (R160). -/
  | linkPoolCleanup
  /-- `DISP_ATTACH` (R170). -/
  | dispAttach
  /-- `DISP_DETACH` (R180). -/
  | dispDetach
  /-- `SERVICE ctx`, budget in `ARG0` (R190). -/
  | service (ctx : Nat)
deriving DecidableEq, Repr, Inhabited

end Sys2Proof
end

