-- ==== Sys2Proof/Machine/State.lean ====
section
/-! DEFINITION. The state of the Manager and of what stands around it, as plain data (10_state.md R25), and its value after
reset (R52). -/

namespace Sys2Proof.Machine

/-- Result codes of a command (60_exceptions.md R240). -/
inductive Err where
  | ok
  | allocFail
  | regFail
  | configErr
  | illegalCmd
deriving DecidableEq, Repr, Inhabited

/-- The operation `SEQ_STAT.OP` names (R30). -/
inductive Op where
  | none
  | ringSetup
  | ringCleanup
  | linkPoolSetup
  | linkPoolCleanup
  | dispAttach
  | dispDetach
  | service
deriving DecidableEq, Repr, Inhabited

/-- The representation of the idle list (R41, R43). -/
inductive IdlePath where
  | inRing
  | scatter
deriving DecidableEq, Repr, Inhabited

/-- The state of the poll timer (R48). -/
inductive Timer where
  | none
  | stopped
  | running
deriving DecidableEq, Repr, Inhabited

/-- `CTX[c].phase` (R45). -/
inductive Phase where
  | idle
  | tx
  | rxExc
  | rxRel
  | rxDst
  | reo
deriving DecidableEq, Repr, Inhabited

/-- The agent that runs a context's invocation: `SVC[c]`, the sequencer (`SERVICE`), or the poll pass (R8, R190, R257). -/
inductive Runner where
  | svc
  | seq
  | poll
deriving DecidableEq, Repr, Inhabited

/-- The agent of a history record (R229). -/
inductive Agent where
  | seq
  | svc (ctx : Nat)
  | poll
deriving DecidableEq, Repr, Inhabited

/-- The Ring record (R33). -/
structure RingRec where
  registered : Bool := false
  owner : BitVec 4 := 0
  rawVa : VAddr := 0
  rawPa : PAddr := 0
  rawSize : Word := 0
  baseVa : VAddr := 0
  basePa : PAddr := 0
  numEntries : Word := 0
  entrySize : BitVec 16 := 0
  intrTimerThres : Word := 0
  intrBatchThres : Word := 0
  lowThres : Word := 0
  lowThresIntrEn : Bool := false
  hnd : Handle := 0
deriving DecidableEq, Repr, Inhabited

/-- The producer state of the idle-list ring `RING[5][0]` (R37); indices count modulo `2 * num_entries`. -/
structure Producer where
  wrShadow : Nat := 0
  wrHw : Nat := 0
  rd : Nat := 0
  bracketOpen : Bool := false
deriving DecidableEq, Repr, Inhabited

/-- The bank record (R39). -/
structure Bank where
  rawVa : VAddr := 0
  rawPa : PAddr := 0
  size : Word := 0
  baseVa : VAddr := 0
  basePa : PAddr := 0
  count : Word := 0
deriving DecidableEq, Repr, Inhabited

/-- The scatter-buffer record (R44). -/
structure Scatter where
  va : VAddr := 0
  pa : PAddr := 0
deriving DecidableEq, Repr, Inhabited

/-- The pool record (R41). -/
structure Pool where
  valid : Bool := false
  totalLinkDescs : Word := 0
  numBanks : Nat := 0
  idlePath : IdlePath := .inRing
  numScatterBufs : Nat := 0
  tailOffset : Word := 0
deriving DecidableEq, Repr, Inhabited

/-- The context record (R45). `next` and `runner` are the model's own (log 17). -/
structure Ctx where
  txMask : Mask := 0
  rxDstMask : Mask := 0
  rxExcMask : Mask := 0
  rxRelMask : Mask := 0
  reoMask : Mask := 0
  pend : Bool := false
  pendBudget : Word := 0
  busy : Bool := false
  phase : Phase := .idle
  ringIdx : BitVec 4 := 0
  budgetIn : Word := 0
  rem : Word := 0
  lastWork : Word := 0
  /-- How many rings of the loop's ring list the running invocation has passed. -/
  next : Nat := 0
  /-- Which agent runs the invocation; meaningful while `busy`. -/
  runner : Runner := .svc
deriving DecidableEq, Repr, Inhabited

/-- One registered interrupt source (R48). -/
structure IrqRec where
  source : BitVec 8
  ctx : BitVec 4
  handle : Handle
deriving DecidableEq, Repr, Inhabited

/-- The dispatcher record (R48); `num_irq` is the length of `irqReg`. -/
structure Disp where
  attached : Bool := false
  irqReg : List IrqRec := []
  timer : Timer := .none
deriving DecidableEq, Repr, Inhabited

/-- One allocation obtained from the host: a member of `LIVE` (R49 (c)). -/
structure Alloc where
  va : VAddr
  pa : PAddr
  size : Word
deriving DecidableEq, Repr, Inhabited

/-- The operands of `RingSetup(k, i, o, n)` (R110). -/
structure RingReq where
  cls : Nat
  inst : Nat
  owner : Nat
  entries : Nat
deriving DecidableEq, Repr, Inhabited

/-- Where the sequencer stands in a command's pseudocode (R30): each constructor but the first two stands before one port
operation, one hold or one handler call, and carries the pseudocode's local variables. -/
inductive Pos where
  /-- No command: `STATUS.BUSY = 0`. -/
  | idle
  /-- A command is accepted and nothing of it is executed (R92 (a)). -/
  | start
  /-- `RingSetup`: before `HostAllocCoherent` (R112). -/
  | ringAlloc (r : RingReq)
  /-- `RingSetup`: before `EngRingRegister`, with the allocation just obtained (R115). -/
  | ringRegister (r : RingReq) (a : Alloc)
  /-- `RingSetup`: before the `HostFreeCoherent` that follows a rejection (R115). -/
  | ringReject (a : Alloc)
  /-- `RingCleanup`: before `EngRingUnregister` (R118). -/
  | ringUnregister (cls inst : Nat)
  /-- `RingCleanup`: before `HostFreeCoherent` (R118). -/
  | ringFree (cls inst : Nat)
  /-- `LINK_POOL_SETUP`, phase `BANKS`: before the allocation of bank `b` (R141). -/
  | bankAlloc (b : Nat)
  /-- Phase `FILL`, in-ring path: before `EngSrcAccessStart` (R145). -/
  | accessStart
  /-- Phase `FILL`, in-ring path: before `EngSrcGetNext` for descriptor `j` of bank `b` (R146). -/
  | getNext (b j : Nat)
  /-- Phase `FILL`, in-ring path: before `EngSetLinkAddr` into `slot` (R146). -/
  | setLink (slot : PAddr) (b j : Nat)
  /-- Phase `FILL`, in-ring path: before `EngSrcAccessEnd` (R146). -/
  | accessEnd
  /-- Phase `PUBLISH`, in-ring path (R147). -/
  | publishRing
  /-- Phase `SCATTER_ALLOC`: before the allocation of scatter buffer `s` (R148). -/
  | scatterAlloc (s : Nat)
  /-- Phase `FILL`, scatter path: before `EngSetLinkAddr` for descriptor `j` of bank `b` (R150). -/
  | scatterLink (b j : Nat)
  /-- Phase `PUBLISH`, scatter path (R152). -/
  | publishScatter
  /-- `PoolUnwind`: before the free of the last scatter buffer (R155). -/
  | unwindScatter
  /-- `PoolUnwind`: before the free of the last bank (R155). -/
  | unwindBank
  /-- `DISP_ATTACH`: before the registration of relevant source number `r` (R173). -/
  | registerSource (r : Nat)
  /-- `DISP_ATTACH`, poll mode: before `HostTimerInit` (R174). -/
  | timerInit
  /-- `DISP_ATTACH`, poll mode: before `HostTimerStart` (R174). -/
  | timerStart
  /-- `DISP_DETACH`: before the free of the last registered source (R182). -/
  | freeSource
  /-- `DISP_DETACH`: held while a context is busy (R184). -/
  | detachWait
  /-- `DISP_DETACH`, poll mode: held while a pass runs, then `HostTimerStop` (R183). -/
  | timerStop
  /-- `DISP_DETACH`, poll mode: before `HostTimerFree` (R183). -/
  | timerFree
  /-- `SERVICE`: held while the context is busy (R197). -/
  | serviceClaim (ctx : Nat)
  /-- `SERVICE`: inside `ServiceLoop` (R190). -/
  | serving (ctx : Nat)
deriving DecidableEq, Repr, Inhabited

/-- The command sequencer (R30, R92). -/
structure Seq where
  op : Op := .none
  /-- `ARG0` as sampled with the accepted command (R84). -/
  arg : Word := 0
  pos : Pos := .idle
  /-- `SEQ_CURSOR`: idle-list entries written so far (R30). -/
  cursor : Nat := 0
  /-- What the unwinding in progress raises at its end; `ok` for `LINK_POOL_CLEANUP` (R155, R160). -/
  failure : Err := .ok
deriving DecidableEq, Repr, Inhabited

/-- Where the poll pass stands (R257). -/
inductive PollPos where
  /-- No pass runs. -/
  | idle
  /-- Held while context `c` is busy. -/
  | claim (ctx : Nat)
  /-- Inside `ServiceLoop` of context `c`. -/
  | serving (ctx : Nat)
  /-- Before the `HostTimerStart` that ends the pass. -/
  | restart
deriving DecidableEq, Repr, Inhabited

/-- The record `params` of `EngRingRegister` (R114, R217). -/
structure RingParams where
  baseVa : VAddr
  basePa : PAddr
  numEntries : Word
  intrTimerThres : Word
  intrBatchThres : Word
  lowThres : Word
  lowThresIntrEn : Bool
deriving DecidableEq, Repr, Inhabited

/-- The record of `EngIdleListPublishScatter` (R152, R223). -/
structure ScatterList where
  addrs : List PAddr
  vaddrs : List VAddr
  count : Nat
  bufSize : Nat
  tailOffset : Word
deriving DecidableEq, Repr, Inhabited

/-- A port operation with its arguments and answer, as `HIST` records it (44_port_operations.md R210 to R225, R229). -/
inductive PortOp where
  | allocCoherent (size : Nat) (answer : Option (VAddr × PAddr))
  | freeCoherent (region : Alloc)
  | registerInterrupt (source : Nat) (ctx : Nat) (answer : Handle)
  | freeInterrupt (handle : Handle)
  | timerInit
  | timerStart (period : Word)
  | timerStop
  | timerFree
  | ringRegister (cls inst owner : Nat) (params : RingParams) (answer : Option Handle)
  | ringUnregister (handle : Handle)
  | srcAccessStart (handle : Handle)
  | srcGetNext (handle : Handle) (answer : PAddr)
  | srcAccessEnd (handle : Handle)
  | publishRing (handle : Handle) (accepted : Bool)
  | publishScatter (list : ScatterList) (accepted : Bool)
  | setLinkAddr (slot : PAddr) (bank : Nat) (desc : PAddr)
  | handlerTxComp (ctx ring : Nat) (budget work : Word)
  | handlerRxExc (ctx : Nat) (budget work : Word)
  | handlerRxRel (ctx : Nat) (budget work : Word)
  | handlerRxDst (ctx ring : Nat) (budget work : Word)
  | handlerReoStatus (ctx : Nat)
deriving DecidableEq, Repr, Inhabited

/-- One record of `HIST` (R229). -/
structure Event where
  agent : Agent
  op : PortOp
deriving DecidableEq, Repr, Inhabited

/-- The reference host, engine and handler of the test vectors (R226, R227). -/
structure RefEnv where
  /-- The allocation cursor `A`. -/
  cursor : Nat := 0x10000004
  /-- The answers still to come of the latest `.alloc` line (log 30). -/
  alloc : List Bool := []
  /-- The answers still to come of the latest `.engine` line (log 30). -/
  engine : List Bool := []
  /-- `PEND[id]` by ring id. -/
  pend : Vector Nat 128 := Vector.replicate 128 0
deriving DecidableEq, Repr, Inhabited

/-- The environment: what moves next and what it answers (R9). An empty list leaves the point to the opaque constants of
`Config`, indexed by the two counters (logs 2 and 3). -/
structure Env where
  moves : List Move := []
  /-- How many moves were drawn from `Config.freeMove`. -/
  ticks : Nat := 0
  allocAnswers : List (Option (VAddr × PAddr)) := []
  registerAnswers : List (Option Handle) := []
  publishAnswers : List Bool := []
  irqAnswers : List Handle := []
  workAnswers : List Word := []
  /-- How many answers were drawn from the opaque constants. -/
  drawn : Nat := 0
  /-- The reference environment, when the answers are its (R226, R227). -/
  reference : Option RefEnv := none
deriving DecidableEq, Repr, Inhabited

/-- Why the model stops where the hardware's behaviour is an access to memory the spec does not admit. Each is safe. -/
inductive Fault where
  /-- `EngSetLinkAddr` would write a byte that is in no live region (R65, R67). Safe: the model stops. -/
  | notLive
  /-- `EngSetLinkAddr` would write beyond the 40-bit address space (R65). Safe: the model stops. -/
  | outsideAddressSpace
deriving DecidableEq, Repr, Inhabited

/-- Why the model refuses a step. Each is safe: it stops where the spec specifies no behaviour. -/
inductive Refusal where
  /-- An instruction without a meaning; raised by `exec`'s arms only. -/
  | notModelled (mnemonic : String)
  /-- `step`: the configuration breaks R15; "a model refuses it". -/
  | invalidConfiguration
  /-- `HostFreeCoherent` of a triple that is not in `LIVE` (R212, R21). -/
  | freeOfUnallocated
  /-- `EngRingUnregister` of a handle that is not registered (R218, R21). -/
  | unregisterUnknown
  /-- `EngSrcAccessStart` with the bracket open (R219, R21). -/
  | bracketAlreadyOpen
  /-- `EngSrcGetNext` or an in-ring entry write outside the bracket (R228 (a), R21). -/
  | outsideBracket
  /-- `EngSrcGetNext` on a full ring: "no rule handles that answer" (R220, R21). -/
  | noProducerSlot
  /-- `EngIdleListPublishRing` with the bracket open or the ring not full (R228 (b), R21). -/
  | publishTooEarly
  /-- `SEQ` would begin `RING_CLEANUP` of a ring that an attached context's mask names (R288, R295). -/
  | ringStillServiced
  /-- An external write into the idle list while `LINK_POOL_SETUP` fills it (R293, R295). -/
  | exclusiveProducerBroken
deriving DecidableEq, Repr, Inhabited

/-- The whole state (R25): the Manager's registers, tables and hidden state, the ghosts of R49, coherent memory, the
configuration it runs under and the environment. -/
structure State where
  /-- The configuration (R10); no step changes it. -/
  cfg : Config
  /-- `STATUS.MODE`, sampled at reset (R283). -/
  mode : Mode
  cmd : Word
  arg0 : Word
  res0 : Word
  res1 : Word
  /-- `STATUS.ERR` (R28). -/
  err : Err
  warnCnt : Word
  /-- `FAULT` bit 0 (R29). -/
  handlerOverrun : Bool
  /-- `FAULT` bit 1 (R29). -/
  cmdOverrun : Bool
  svcBudget : Word
  pollPeriod : Word
  seq : Seq
  /-- `RING[k][i]` at index `8 * k + i` (R33). -/
  rings : Vector RingRec 128
  /-- The four further fields of `RING[5][0]` (R37). -/
  producer : Producer
  banks : Vector Bank 256
  scats : Vector Scatter 256
  pool : Pool
  ctxs : Vector Ctx 16
  disp : Disp
  poll : PollPos
  /-- `LIVE`, oldest allocation first (R49 (c)). -/
  live : List Alloc
  /-- `ENG_REG`, oldest registration first (R49 (d)). -/
  engReg : List Handle
  /-- `ENG_IDLE` (R49 (d)). -/
  engIdle : Bool
  /-- `HIST`, oldest record first (R49 (e), R229). -/
  hist : List Event
  /-- Coherent memory: the bytes that have a value, addresses strictly rising (R65, R282; log 14). -/
  mem : List Host.Cell
  /-- What the host's last register read returned (log 26). -/
  hostData : Word
  env : Env
deriving DecidableEq, Repr

/-- The state right after reset under a configuration and a mode strap (R52, R280). -/
def State.resetWith (cfg : Config) (strap : Mode) : State where
  cfg := cfg
  mode := strap
  cmd := 0
  arg0 := 0
  res0 := 0
  res1 := 0
  err := .ok
  warnCnt := 0
  handlerOverrun := false
  cmdOverrun := false
  svcBudget := cfg.defaultEventBudget
  pollPeriod := cfg.defaultPollPeriod
  seq := {}
  rings := Vector.replicate 128 {}
  producer := {}
  banks := Vector.replicate 256 {}
  scats := Vector.replicate 256 {}
  pool := {}
  ctxs := Vector.replicate 16 {}
  disp := {}
  poll := .idle
  live := []
  engReg := []
  engIdle := false
  hist := []
  mem := []
  hostData := 0
  env := {}

/-- The machine right after reset (R52), in the spec's reference configuration and event-driven mode (log 1). -/
def State.reset : State := State.resetWith Config.ref .event

end Sys2Proof.Machine
end

