-- ==== Sys2Proof/Machine/Flags.lean ====
section
/-! DEFINITION. `STATUS`, `FAULT`, `WARN_CNT` and `SEQ_STAT` (10_state.md R28 to R30): how each is read, and the operations
that set a flag. -/

namespace Sys2Proof.Machine

/-- `STATUS.BUSY`: a command is accepted and not completed (R28, R92). -/
def State.busy (s : State) : Bool :=
  match s.seq.pos with
  | .idle => false
  | _ => true

/-- The code of a result in `STATUS.ERR` (R240). -/
def Err.code : Err → Nat
  | .ok => 0
  | .allocFail => 1
  | .regFail => 2
  | .configErr => 3
  | .illegalCmd => 4

/-- The strap as `STATUS` bit 10 shows it (R28). -/
def modeBit : Mode → Nat
  | .event => 0
  | .poll => 1

/-- `POOL.idle_path` as a bit (R28, R41). -/
def pathBit : IdlePath → Nat
  | .inRing => 0
  | .scatter => 1

/-- A flag as a number. -/
def bitNat (b : Bool) : Nat := if b then 1 else 0

/-- The register `STATUS` (R28). -/
def statusWord (s : State) : Word :=
  BitVec.ofNat 32 (bitNat s.busy + 2 ^ 4 * s.err.code + 2 ^ 8 * bitNat s.pool.valid + 2 ^ 9 * bitNat s.disp.attached +
    2 ^ 10 * modeBit s.mode + 2 ^ 11 * pathBit s.pool.idlePath)

/-- The register `FAULT` (R29). -/
def faultWord (s : State) : Word := BitVec.ofNat 32 (bitNat s.handlerOverrun + 2 * bitNat s.cmdOverrun)

/-- A rule says "warn": `WARN_CNT` counts, saturating (R29). -/
def warn (s : State) : State :=
  { s with warnCnt := if s.warnCnt = 0xFFFFFFFF then s.warnCnt else s.warnCnt + 1 }

/-- `FAULT.HANDLER_OVERRUN <- 1` (R195). -/
def raiseHandlerOverrun (s : State) : State := { s with handlerOverrun := true }

/-- `FAULT.CMD_OVERRUN <- 1` (R92 (d)). -/
def raiseCmdOverrun (s : State) : State := { s with cmdOverrun := true }

/-- The code of `SEQ_STAT.OP` (R30). -/
def Op.code : Op → Nat
  | .none => 0
  | .ringSetup => 1
  | .ringCleanup => 2
  | .linkPoolSetup => 3
  | .linkPoolCleanup => 4
  | .dispAttach => 5
  | .dispDetach => 6
  | .service => 7

/-- `SEQ_STAT.PHASE` of `LINK_POOL_SETUP` at a position (R30). -/
def poolPhase : Pos → Nat
  | .idle => 0
  | .start => 1
  | .bankAlloc _ => 2
  | .ringAlloc _ | .ringRegister _ _ | .ringReject _ => 3
  | .scatterAlloc _ => 4
  | .accessStart | .getNext _ _ | .setLink _ _ _ | .accessEnd | .scatterLink _ _ => 5
  | .publishRing | .publishScatter => 6
  | .ringUnregister _ _ | .ringFree _ _ | .unwindScatter | .unwindBank => 7
  | .registerSource _ | .timerInit | .timerStart | .freeSource | .detachWait | .timerStop | .timerFree
  | .serviceClaim _ | .serving _ => 1

/-- `SEQ_STAT.PHASE` (R30); 0 for `NOP` and for an illegal word (log 10), 1 for every other command but
`LINK_POOL_SETUP` (log 12). -/
def seqPhase (q : Seq) : Nat :=
  match q.pos, q.op with
  | .idle, _ => 0
  | _, .none => 0
  | p, .linkPoolSetup => poolPhase p
  | _, _ => 1

/-- `SEQ_STAT.INDEX`: the bank, scatter-buffer, context or registration index the phase is at (R30; log 11). -/
def seqIndex (s : State) : Nat :=
  match s.seq.pos with
  | .bankAlloc b => b
  | .getNext b _ => b
  | .setLink _ b _ => b
  | .scatterLink b _ => b
  | .scatterAlloc n => n
  | .unwindScatter => s.pool.numScatterBufs - 1
  | .unwindBank => s.pool.numBanks - 1
  | .registerSource r => r
  | .freeSource => s.disp.irqReg.length - 1
  | .serviceClaim c => c
  | .serving c => c
  | _ => 0

/-- The register `SEQ_STAT` (R30). -/
def seqStatWord (s : State) : Word :=
  BitVec.ofNat 32 (s.seq.op.code + 2 ^ 4 * seqPhase s.seq + 2 ^ 8 * (seqIndex s % 2 ^ 16))

/-- The code of `CTX[c].phase` (R45). -/
def Phase.code : Phase → Nat
  | .idle => 0
  | .tx => 1
  | .rxExc => 2
  | .rxRel => 3
  | .rxDst => 4
  | .reo => 5

end Sys2Proof.Machine
end

