-- ==== Sys2Proof/Machine/Memory.lean ====
section
/-! DEFINITION. Coherent memory (20_memory.md R65, R69): a list of address and byte, addresses strictly rising and below
`2^40`. An address that is not listed has no value (R282; log 14). -/

namespace Sys2Proof.Machine

/-- The size of the coherent address space (R65). -/
def addressSpace : Nat := 2 ^ 40

/-- The byte at an address, if it has a value. -/
def Memory.read : List Host.Cell → Nat → Option Byte
  | [], _ => none
  | (a, b) :: rest, x => if a = x then some b else Memory.read rest x

/-- Memory with a byte written, in the canonical form. -/
def Memory.write : List Host.Cell → Nat → Byte → List Host.Cell
  | [], x, v => [(x, v)]
  | (a, b) :: rest, x, v =>
    if x < a then (x, v) :: (a, b) :: rest
    else if x = a then (x, v) :: rest
    else (a, b) :: Memory.write rest x v

/-- Memory with the bytes `lo .. lo + len - 1` without a value. -/
def Memory.forget (m : List Host.Cell) (lo len : Nat) : List Host.Cell :=
  m.filter fun c => !(decide (lo ≤ c.1) && decide (c.1 < lo + len))

/-- Memory with bytes written at consecutive ascending addresses (R71). -/
def Memory.writeBytes (m : List Host.Cell) (x : Nat) : List Byte → List Host.Cell
  | [] => m
  | b :: rest => Memory.writeBytes (Memory.write m x b) (x + 1) rest

/-- The `n` low bytes of `v`, least significant first (R69). -/
def leBytes (v : Nat) : Nat → List Byte
  | 0 => []
  | n + 1 => BitVec.ofNat 8 v :: leBytes (v / 256) n

/-- `MemWrite(x, n, v)` (R17, R69). -/
def Memory.writeLe (m : List Host.Cell) (x n v : Nat) : List Host.Cell := Memory.writeBytes m x (leBytes v n)

/-- `MemRead(x, n)` (R17, R69), where every byte has a value. No rule of the spec reads memory (R66). -/
def Memory.readLe (m : List Host.Cell) (x : Nat) : Nat → Option Nat
  | 0 => some 0
  | n + 1 =>
    match Memory.read m x, Memory.readLe m (x + 1) n with
    | some b, some v => some (b.toNat + 256 * v)
    | _, _ => none

/-- Addresses strictly rising from `lo` on and inside the address space. -/
def Memory.wfFrom : Nat → List Host.Cell → Bool
  | _, [] => true
  | lo, (a, _) :: rest => decide (lo ≤ a) && decide (a < addressSpace) && Memory.wfFrom (a + 1) rest

/-- The canonical form of memory. -/
def Memory.wf (m : List Host.Cell) : Bool := Memory.wfFrom 0 m

end Sys2Proof.Machine
end

