-- ==== Sys2Proof/Machine/Operands.lean ====
section
/-! DEFINITION. The spec's arithmetic (00_scope.md R16 to R20), what a valid configuration is (R12 to R15), and how a
command's operands are read: class table, scalar operand, context masks. -/

namespace Sys2Proof.Machine

/-! ## Arithmetic -/

/-- `align_up(x, a)`, the first multiple of `a` that is at least `x` (R18). -/
def alignUp (x a : Nat) : Nat := (x + a - 1) / a * a

/-- `pow2_ceil(n)`, the smallest power of two that is at least `n` (R19). -/
def pow2Ceil (n : Nat) : Nat := if n ≤ 1 then 1 else 2 ^ ((n - 1).log2 + 1)

/-- `ceil_div(a, b)` (R20). -/
def ceilDiv (a b : Nat) : Nat := (a + b - 1) / b

/-- `2^32 - 1`: `COUNT_MAX`, `SIZE_MAX` and `BUDGET_MAX` (R11). -/
def wordMax : Nat := 0xFFFFFFFF

/-- `BUDGET_MAX` as a budget (R257). -/
def budgetMax : Word := 0xFFFFFFFF

/-- `a` is a power of two. -/
def isPow2 (a : Nat) : Bool := a == 2 ^ a.log2

/-! ## Class table -/

/-- `CLASS[k]`; a code beyond 15 is no class (R12). -/
def classOf (c : Config) (k : Nat) : ClassConfig := (c.classes[k]?).getD {}

/-- The class code of the idle-list ring (R12). -/
def idleClass : Nat := 5

/-- `IDLE_ENTRY_SIZE` (R13, R77). -/
def idleEntrySize : Nat := 8

/-- The class exists and has the instance (R97, R111). -/
def slotExists (c : Config) (k i : Nat) : Bool := (classOf c k).valid && decide (i < (classOf c k).maxInst)

/-- The size `RingSetup` allocates for `n` entries of class `k` (R112). -/
def ringSize (c : Config) (k n : Nat) : Nat :=
  n * (classOf c k).entrySize.toNat + (classOf c k).align - 1

/-! ## Valid configurations -/

/-- The records of the class table: R15 (a), (b), and the instances and flags R12 fixes for the named classes (log 9). -/
def classesValid (c : Config) : Bool :=
  (List.range 16).all (fun k =>
    let r := classOf c k
    isPow2 r.align && decide (8 ≤ r.align) &&
      (!r.valid || (decide (1 ≤ r.entrySize.toNat) && decide (1 ≤ r.maxInst) && decide (r.maxInst ≤ 8)))) &&
  (List.range 7).all (fun k => (classOf c k).valid && ((classOf c k).bufferSupply == decide (k = 6))) &&
  decide ((classOf c 5).entrySize = 8) &&
  decide ((List.range 7).map (fun k => (classOf c k).maxInst) =
    [c.numTxRings, c.numRxRings, 1, 1, 1, 1, c.numRxBufRings])

/-- The pool parameters: R15 (a), (c), (d), (e). -/
def poolParamsValid (c : Config) : Bool :=
  isPow2 c.linkDescAlign &&
  decide (1 ≤ c.linkDescSize) && decide (c.maxAllocSize ≤ wordMax) &&
  decide (c.linkDescSize + (c.linkDescAlign - 1) ≤ c.maxAllocSize) &&
  decide (idleEntrySize ≤ c.scatterBufSize) && decide (c.scatterBufSize ≤ c.maxAllocSize) &&
  decide (1 ≤ c.maxLinkDescBanks) && decide (c.maxLinkDescBanks ≤ 256) &&
  decide (1 ≤ c.maxScatterBufs) && decide (c.maxScatterBufs ≤ 256) &&
  [c.avgTidsPerClient, c.avgMpdusPerTid, c.avgFlowsPerTid, c.avgMsdusPerFlow, c.avgMsdusPerMpdu,
    c.mpduLinksPerQueueDesc, c.mpdusPerLinkDesc, c.msdusPerLinkDesc].all (fun n => decide (1 ≤ n))

/-- Row `ctx` of `INT_MASK_TABLE` (R14). -/
def maskRow (c : Config) (ctx : Nat) : MaskRow := (c.intMaskTable[ctx]?).getD {}

/-- The mask of class code `k` in `0 .. 4` of a row (R170). -/
def rowMask (r : MaskRow) : Nat → Mask
  | 0 => r.tx
  | 1 => r.rxDst
  | 2 => r.rxExc
  | 3 => r.rxRel
  | 4 => r.reo
  | _ => 0

/-- The dispatcher parameters: the ranges of R14. -/
def dispParamsValid (c : Config) : Bool :=
  decide (1 ≤ c.numCtx) && decide (c.numCtx ≤ 16) && decide (1 ≤ c.numTxRings) && decide (c.numTxRings ≤ 8) &&
  decide (1 ≤ c.numRxRings) && decide (c.numRxRings ≤ 8) && decide (1 ≤ c.numRxBufRings) && decide (c.numRxBufRings ≤ 8)

/-- `INT_MASK_TABLE`: no bit at or above the class's instance count, and disjoint masks per class (R15 (f)). -/
def masksValid (c : Config) : Bool :=
  (List.range 5).all fun k => (List.range c.numCtx).all fun x =>
    decide ((rowMask (maskRow c x) k).toNat < 2 ^ (classOf c k).maxInst) &&
    (List.range x).all fun y => rowMask (maskRow c x) k &&& rowMask (maskRow c y) k == 0

/-- The configuration is valid (R15, with the ranges of R12 and R14). -/
def configValid (c : Config) : Bool :=
  classesValid c && poolParamsValid c && dispParamsValid c && masksValid c

/-! ## Scalar operand, addresses -/

/-- The command's scalar operand: `ARG0` as sampled at acceptance (R84, R93). -/
def scalar (s : State) : Nat := s.seq.arg.toNat

/-- The virtual address `slack` bytes after `va` (R68); free where the sum does not fit `VA_W` bits (log 7). -/
def offsetVa (va : VAddr) (slack : Nat) : VAddr :=
  if va.toNat + slack < 2 ^ 64 then va + BitVec.ofNat 64 slack else Config.freeBaseVa va slack

/-- The aligned physical base of a raw address (R113, R142). -/
def alignedPa (pa : PAddr) (a : Nat) : PAddr := BitVec.ofNat 40 (alignUp pa.toNat a)

/-- The virtual base that goes with `alignedPa` (R68). -/
def alignedVa (va : VAddr) (pa : PAddr) (a : Nat) : VAddr := offsetVa va (alignUp pa.toNat a - pa.toNat)

/-! ## Context masks -/

/-- `mask(c, k)`: the mask of a context for class code `k` in `0 .. 4` (R170). -/
def ctxMask (x : Ctx) : Nat → Mask
  | 0 => x.txMask
  | 1 => x.rxDstMask
  | 2 => x.rxExcMask
  | 3 => x.rxRelMask
  | 4 => x.reoMask
  | _ => 0

end Sys2Proof.Machine
end

