-- ==== Sys2Proof/Machine/Ops.lean ====
section
/-! DEFINITION. The operations every command is written in: the tables, the completion of a command and the raising of an
error (30_encoding.md R92, 60_exceptions.md R241), and the port operations with what the environment may answer
(44_port_operations.md R210 to R225). -/

namespace Sys2Proof.Machine

/-- Outcomes of this machine. -/
abbrev Out := Host.Outcome State Fault Refusal

/-- Goes on from a next state; a fault or a refusal stays. -/
def andThen (o : Out) (f : State → Out) : Out :=
  match o with
  | .next s => f s
  | .fault r => .fault r
  | .refused r => .refused r

/-! ## The tables -/

/-- The place of `RING[k][i]` in the ring table; `i` beyond 7 is no place (R33). -/
def ringPlace (k i : Nat) : Nat := if i < 8 then 8 * k + i else 128

/-- `RING[k][i]` (R33). -/
def State.ring (s : State) (k i : Nat) : RingRec := (s.rings[ringPlace k i]?).getD {}

/-- `RING[k][i] <- r`. -/
def setRing (k i : Nat) (r : RingRec) (s : State) : State :=
  { s with rings := s.rings.setIfInBounds (ringPlace k i) r }

/-- `BANK[b]` (R39). -/
def State.bank (s : State) (b : Nat) : Bank := (s.banks[b]?).getD {}

/-- `BANK[b] <- r`. -/
def setBank (b : Nat) (r : Bank) (s : State) : State := { s with banks := s.banks.setIfInBounds b r }

/-- `SCAT[n]` (R44). -/
def State.scat (s : State) (n : Nat) : Scatter := (s.scats[n]?).getD {}

/-- `SCAT[n] <- r`. -/
def setScat (n : Nat) (r : Scatter) (s : State) : State := { s with scats := s.scats.setIfInBounds n r }

/-- `CTX[c]` (R45). -/
def State.ctx (s : State) (c : Nat) : Ctx := (s.ctxs[c]?).getD {}

/-- `CTX[c] <- x`. -/
def setCtx (c : Nat) (x : Ctx) (s : State) : State := { s with ctxs := s.ctxs.setIfInBounds c x }

/-- The sequencer moves to a position (R30). -/
def goto (p : Pos) (s : State) : State := { s with seq := { s.seq with pos := p } }

/-- `SEQ_STAT.OP` names the command (R30, R92 (a)). -/
def setOp (o : Op) (s : State) : State := { s with seq := { s.seq with op := o } }

/-! ## Acceptance, completion, error -/

/-- The operation a command word starts (R30): none for `NOP` and for an illegal word (log 10). -/
def opOf : Instr → Op
  | .nop => .none
  | .ringSetup _ _ _ => .ringSetup
  | .ringCleanup _ _ => .ringCleanup
  | .linkPoolSetup => .linkPoolSetup
  | .linkPoolCleanup => .linkPoolCleanup
  | .dispAttach => .dispAttach
  | .dispDetach => .dispDetach
  | .service _ => .service

/-- Acceptance of the word in `CMD` with what it decodes to: `ARG0` is sampled, `BUSY` and `SEQ_STAT` are set (R92 (a)). -/
def accept (w : Word) (decoded : Option Instr) (s : State) : State :=
  { s with cmd := w, seq := { op := (decoded.map opOf).getD .none, arg := s.arg0, pos := .start } }

/-- Completion: the result code and the results are stored and the sequencer is idle (R92 (c)). -/
def complete (e : Err) (r0 r1 : Word) (s : State) : State := { s with err := e, res0 := r0, res1 := r1, seq := {} }

/-- `raise E`: the command ends with the code and zero results; nothing else is recorded (R241). -/
def raiseErr (e : Err) (s : State) : State := complete e 0 0 s

/-- `complete OK` with no result named: both are 0 (R27, R92 (c)). -/
def completeOk (s : State) : State := complete .ok 0 0 s

/-! ## History and draws -/

/-- `HIST` gains one record (R229). -/
def record (a : Agent) (o : PortOp) (s : State) : State := { s with hist := s.hist ++ [⟨a, o⟩] }

/-- The answer at the head of a list of Booleans, accepting when none is left, and the rest (R227). -/
def headOr (l : List Bool) : Bool × List Bool :=
  match l with
  | [] => (true, [])
  | a :: rest => (a, rest)

/-- The environment with one opaque draw counted. -/
def drawOne (s : State) : State := { s with env := { s.env with drawn := s.env.drawn + 1 } }

/-- The reference environment takes a new value. -/
def setRef (r : RefEnv) (s : State) : State := { s with env := { s.env with reference := some r } }

/-- The allocator's raw answer (R9 (a)): the reference allocator's (R227), a listed one, or a free one. DESIGN CHOICE (log 30):
a reference region that would leave the address space is null; R227 does not say what follows the cursor's last room. -/
def drawAlloc (size : Nat) (s : State) : Option (VAddr × PAddr) × State :=
  match s.env.reference with
  | some r =>
    let (ok, rest) := headOr r.alloc
    if ok && decide (r.cursor + size ≤ addressSpace) then
      (some (BitVec.ofNat 64 (0xFFFF000000000000 + r.cursor), BitVec.ofNat 40 r.cursor),
        setRef { r with alloc := rest, cursor := alignUp (r.cursor + size) 8 + 4 } s)
    else (none, setRef { r with alloc := rest } s)
  | none =>
    match s.env.allocAnswers with
    | a :: rest => (a, { s with env := { s.env with allocAnswers := rest } })
    | [] => (Config.freeAlloc s.env.drawn, drawOne s)

/-- The engine's raw answer to the registration of instance `i` of class `k` (R9 (b), R227). -/
def drawRegister (k i : Nat) (s : State) : Option Handle × State :=
  match s.env.reference with
  | some r =>
    let (ok, rest) := headOr r.engine
    (if ok then some (BitVec.ofNat 32 (8 * k + i + 1)) else none, setRef { r with engine := rest } s)
  | none =>
    match s.env.registerAnswers with
    | a :: rest => (a, { s with env := { s.env with registerAnswers := rest } })
    | [] => (Config.freeRegister s.env.drawn, drawOne s)

/-- The engine's answer to a publication (R9 (b), R227). -/
def drawPublish (s : State) : Bool × State :=
  match s.env.reference with
  | some r =>
    let (ok, rest) := headOr r.engine
    (ok, setRef { r with engine := rest } s)
  | none =>
    match s.env.publishAnswers with
    | a :: rest => (a, { s with env := { s.env with publishAnswers := rest } })
    | [] => (Config.freePublish s.env.drawn, drawOne s)

/-- The host's raw answer to an interrupt registration (R213, R227). -/
def drawIrqHandle (source : Nat) (s : State) : Handle × State :=
  match s.env.reference with
  | some _ => (BitVec.ofNat 32 (0x100 + source), s)
  | none =>
    match s.env.irqAnswers with
    | a :: rest => (a, { s with env := { s.env with irqAnswers := rest } })
    | [] => (Config.freeIrqHandle s.env.drawn, drawOne s)

/-- The work a handler of the ring `id` reports for a budget (R9 (c), R225, R226). -/
def drawWork (id : Nat) (budget : Word) (s : State) : Word × State :=
  match s.env.reference with
  | some r =>
    let queued := (r.pend[id]?).getD 0
    let w := min queued budget.toNat
    (BitVec.ofNat 32 w, setRef { r with pend := r.pend.setIfInBounds id (queued - w) } s)
  | none =>
    match s.env.workAnswers with
    | a :: rest => (a, { s with env := { s.env with workAnswers := rest } })
    | [] => (Config.freeWork s.env.drawn, drawOne s)

/-! ## What an answer may be -/

/-- The byte ranges of a new region at `pa` and of a live one do not meet (R210). -/
def apart (pa size : Nat) (a : Alloc) : Bool :=
  decide (pa + size ≤ a.pa.toNat) || decide (a.pa.toNat + a.size.toNat ≤ pa)

/-- A region the allocator may answer: inside the address space, apart from every live one (R210). -/
def allocAdmissible (s : State) (size : Nat) (p : VAddr × PAddr) : Bool :=
  decide (p.2.toNat + size ≤ addressSpace) && s.live.all (apart p.2.toNat size)

/-- A handle the engine may answer: not 0 and not registered (R217). -/
def engHandleAdmissible (s : State) (h : Handle) : Bool := decide (h ≠ 0) && !s.engReg.contains h

/-- The interrupt handles in use (R213). -/
def irqHandles (s : State) : List Handle := s.disp.irqReg.map IrqRec.handle

/-- An interrupt handle the host may answer: not 0 and not in use (R213). -/
def irqHandleAdmissible (s : State) (h : Handle) : Bool := decide (h ≠ 0) && !(irqHandles s).contains h

/-- The raw handle where the host may answer it, else the least one it may answer (R213; log 3). -/
def legalIrqHandle (s : State) (raw : Handle) : Handle :=
  if irqHandleAdmissible s raw then raw
  else (((List.range (s.disp.irqReg.length + 2)).map (BitVec.ofNat 32)).find? (irqHandleAdmissible s)).getD 1

/-! ## Host runtime port -/

/-- `HostAllocCoherent(size)` (R210). A fresh region's bytes have no value (R282). -/
def hostAllocCoherent (size : Nat) (s : State) : Option Alloc × State :=
  let (raw, s1) := drawAlloc size s
  match raw.filter (allocAdmissible s size) with
  | none => (none, record .seq (.allocCoherent size none) s1)
  | some (va, pa) =>
    let a : Alloc := ⟨va, pa, BitVec.ofNat 32 size⟩
    let s2 := record .seq (.allocCoherent size (some (va, pa))) s1
    (some a, { s2 with live := s2.live ++ [a], mem := Memory.forget s2.mem pa.toNat size })

/-- `HostFreeCoherent(va, pa, size)` of a member of `LIVE` (R212); of anything else it is a hazard violation (R21). -/
def hostFreeCoherent (a : Alloc) (s : State) : Out :=
  if s.live.contains a then
    .next { record .seq (.freeCoherent a) s with live := s.live.erase a }
  else .refused .freeOfUnallocated

/-- `HostRegisterInterrupt(source, ServiceEntry, c)`, with the record appended to `DISP.irq_reg` (R170, R213). -/
def hostRegisterInterrupt (source c : Nat) (s : State) : State :=
  let (raw, s1) := drawIrqHandle source s
  let h := legalIrqHandle s raw
  let s2 := record .seq (.registerInterrupt source c h) s1
  { s2 with disp := { s2.disp with irqReg := s2.disp.irqReg ++ [⟨BitVec.ofNat 8 source, BitVec.ofNat 4 c, h⟩] } }

/-- `HostFreeInterrupt` of the last registered source, whose record is removed (R182, R214). -/
def hostFreeLastInterrupt (s : State) : State :=
  match s.disp.irqReg.getLast? with
  | none => s
  | some r =>
    { record .seq (.freeInterrupt r.handle) s with disp := { s.disp with irqReg := s.disp.irqReg.dropLast } }

/-- `DISP.timer <- t`. -/
def setTimer (t : Timer) (s : State) : State := { s with disp := { s.disp with timer := t } }

/-- `HostTimerInit()` (R215): the timer exists, stopped. -/
def hostTimerInit (s : State) : State := setTimer .stopped (record .seq .timerInit s)

/-- `HostTimerStart(POLL_PERIOD)` with the value the register has now (R215, R258). -/
def hostTimerStart (a : Agent) (s : State) : State := setTimer .running (record a (.timerStart s.pollPeriod) s)

/-- `HostTimerStop()` (R215). -/
def hostTimerStop (s : State) : State := setTimer .stopped (record .seq .timerStop s)

/-- `HostTimerFree()` (R215). -/
def hostTimerFree (s : State) : State := setTimer .none (record .seq .timerFree s)

/-! ## Hardware engine port -/

/-- `EngRingRegister(k, i, o, params)` (R217). -/
def engRingRegister (r : RingReq) (params : RingParams) (s : State) : Option Handle × State :=
  let (raw, s1) := drawRegister r.cls r.inst s
  let answer := raw.filter (engHandleAdmissible s)
  let s2 := record .seq (.ringRegister r.cls r.inst r.owner params answer) s1
  match answer with
  | none => (none, s2)
  | some h => (some h, { s2 with engReg := s2.engReg ++ [h] })

/-- `EngRingUnregister(handle)` of a registered handle (R218); of anything else it is a hazard violation (R21). -/
def engRingUnregister (h : Handle) (s : State) : Out :=
  if s.engReg.contains h then
    .next { record .seq (.ringUnregister h) s with engReg := s.engReg.erase h }
  else .refused .unregisterUnknown

/-- `EngSrcAccessStart(handle)` of the idle-list ring (R219). -/
def engSrcAccessStart (s : State) : Out :=
  if s.producer.bracketOpen then .refused .bracketAlreadyOpen
  else
    .next { record .seq (.srcAccessStart (s.ring idleClass 0).hnd) s with
      producer := { s.producer with bracketOpen := true, wrShadow := s.producer.wrHw } }

/-- The idle-list ring has no free slot (R37, R220). -/
def producerFull (s : State) : Bool :=
  let n := (s.ring idleClass 0).numEntries.toNat
  decide ((s.producer.wrShadow + 2 * n - s.producer.rd) % (2 * n) = n) || decide (n = 0)

/-- The address of the next producer slot (R220). -/
def producerSlot (s : State) : PAddr :=
  let r := s.ring idleClass 0
  BitVec.ofNat 40 (r.basePa.toNat + idleEntrySize * (s.producer.wrShadow % r.numEntries.toNat))

/-- `EngSrcGetNext(handle)`: the local write index advances; the slot is `producerSlot` of the state before (R220). -/
def engSrcGetNext (s : State) : Out :=
  if !s.producer.bracketOpen then .refused .outsideBracket
  else if producerFull s then .refused .noProducerSlot
  else
    let r := s.ring idleClass 0
    .next { record .seq (.srcGetNext r.hnd (producerSlot s)) s with
      producer := { s.producer with wrShadow := (s.producer.wrShadow + 1) % (2 * r.numEntries.toNat) } }

/-- `EngSrcAccessEnd(handle)`: the write index is published and the bracket closed (R221). -/
def engSrcAccessEnd (s : State) : State :=
  { record .seq (.srcAccessEnd (s.ring idleClass 0).hnd) s with
    producer := { s.producer with wrHw := s.producer.wrShadow, bracketOpen := false } }

/-- The 64-bit image of an idle-list entry (R77). -/
def entryImage (bank : Nat) (desc : PAddr) : Nat := desc.toNat + 2 ^ 40 * (bank % 256)

/-- The byte at `x` is live (R67). -/
def isLive (s : State) (x : Nat) : Bool :=
  s.live.any fun a => decide (a.pa.toNat ≤ x) && decide (x < a.pa.toNat + a.size.toNat)

/-- `EngSetLinkAddr(slot, bank, desc)`: the entry's 8 bytes are written (R77, R224). A byte outside the address space or
not live stops the model (log 15). -/
def engSetLinkAddr (slot : PAddr) (bank : Nat) (desc : PAddr) (s : State) : Out :=
  if addressSpace < slot.toNat + idleEntrySize then .fault .outsideAddressSpace
  else if (List.range idleEntrySize).all (fun j => isLive s (slot.toNat + j)) then
    .next { record .seq (.setLinkAddr slot bank desc) s with
      mem := Memory.writeLe s.mem slot.toNat idleEntrySize (entryImage bank desc) }
  else .fault .notLive

/-- `EngIdleListPublishRing(handle)` (R222), called with the bracket closed and the ring full (R228 (b)). -/
def engPublishRing (s : State) : Host.Outcome (Bool × State) Fault Refusal :=
  let r := s.ring idleClass 0
  if s.producer.bracketOpen || decide (s.producer.wrHw ≠ r.numEntries.toNat) then .refused .publishTooEarly
  else
    let (ok, s1) := drawPublish s
    let s2 := record .seq (.publishRing r.hnd ok) s1
    .next (ok, { s2 with engIdle := s2.engIdle || ok })

/-- The record given to `EngIdleListPublishScatter` (R152, R223). -/
def scatterList (s : State) : ScatterList where
  addrs := (List.range s.pool.numScatterBufs).map fun n => (s.scat n).pa
  vaddrs := (List.range s.pool.numScatterBufs).map fun n => (s.scat n).va
  count := s.pool.numScatterBufs
  bufSize := s.cfg.scatterBufSize
  tailOffset := s.pool.tailOffset

/-- `EngIdleListPublishScatter(rec)` (R223). -/
def engPublishScatter (s : State) : Bool × State :=
  let (ok, s1) := drawPublish s
  let s2 := record .seq (.publishScatter (scatterList s) ok) s1
  (ok, { s2 with engIdle := s2.engIdle || ok })

end Sys2Proof.Machine
end

