-- ==== Sys2Proof/Machine/Loop.lean ====
section
/-! DEFINITION. `ServiceLoop` (43_service_command.md R190 to R202), one handler call a step; the `SERVICE` command, an
event-started invocation and the poll pass share it. -/

namespace Sys2Proof.Machine

/-- A ring the loop may service (R191). -/
inductive Slot where
  | tx (ring : Nat)
  | rxExc
  | rxRel
  | rxDst (ring : Nat)
  | reo
deriving DecidableEq, Repr, Inhabited

/-- The rings in the loop's fixed priority order (R191 to R193, R198). -/
def loopSlots (c : Config) : List Slot :=
  (List.range c.numTxRings).map .tx ++ [.rxExc, .rxRel] ++ (List.range c.numRxRings).map .rxDst ++ [.reo]

/-- The ring is in the context's masks (R191; bit 0 for a single ring, R193). -/
def Slot.present (x : Ctx) : Slot → Bool
  | .tx i => x.txMask.getLsbD i
  | .rxExc => x.rxExcMask.getLsbD 0
  | .rxRel => x.rxRelMask.getLsbD 0
  | .rxDst i => x.rxDstMask.getLsbD i
  | .reo => x.reoMask.getLsbD 0

/-- Phases 1 to 4 test the budget; phase 5 does not (R194, R198). -/
def Slot.budgeted : Slot → Bool
  | .reo => false
  | _ => true

/-- `CTX[c].phase` while the ring is serviced (R191). -/
def Slot.phase : Slot → Phase
  | .tx _ => .tx
  | .rxExc => .rxExc
  | .rxRel => .rxRel
  | .rxDst _ => .rxDst
  | .reo => .reo

/-- `CTX[c].ring_idx` while the ring is serviced (R191). -/
def Slot.ringIdx : Slot → Nat
  | .tx i => i
  | .rxDst i => i
  | _ => 0

/-- The ring id whose queue the reference handler drains (R226). -/
def Slot.ringId : Slot → Nat
  | .tx i => i
  | .rxDst i => 8 + i
  | .rxExc => 16
  | .rxRel => 24
  | .reo => 32

/-- The present rings the invocation has not passed, each with its place in the list. -/
def slotsAhead (c : Config) (x : Ctx) : List (Slot × Nat) :=
  ((loopSlots c).zipIdx.drop x.next).filter fun p => p.1.present x

/-- The next handler call: the next present ring, or, when its phase tests the budget and the budget is 0, the REO-status
ring if present (`goto budget_done`, R191, R194, R198). -/
def nextCall (c : Config) (x : Ctx) : Option (Slot × Nat) :=
  match slotsAhead c x with
  | [] => none
  | p :: rest => if p.1.budgeted && decide (x.rem = 0) then rest.find? (fun q => q.1 == .reo) else some p

/-- Start of an invocation of context `c` with a budget: the caller finds `busy = 0` (R191, R253, R254). -/
def startInvocation (r : Runner) (budget : Word) (c : Nat) (s : State) : State :=
  setCtx c { s.ctx c with busy := true, phase := .tx, budgetIn := budget, rem := budget, next := 0, runner := r } s

/-- `Account(c, w)` (R191, R195). -/
def account (c : Nat) (w : Word) (s : State) : State :=
  let x := s.ctx c
  if x.rem.toNat < w.toNat then setCtx c { x with rem := 0 } (raiseHandlerOverrun s)
  else setCtx c { x with rem := x.rem - w } s

/-- The history record of a budgeted handler call (R225). -/
def handlerOp (c : Nat) (budget work : Word) : Slot → PortOp
  | .tx i => .handlerTxComp c i budget work
  | .rxExc => .handlerRxExc c budget work
  | .rxRel => .handlerRxRel c budget work
  | .rxDst i => .handlerRxDst c i budget work
  | .reo => .handlerReoStatus c

/-- The reference handler drains the REO-status queue (R226). -/
def drainReo (s : State) : State :=
  match s.env.reference with
  | some r => setRef { r with pend := r.pend.setIfInBounds Slot.reo.ringId 0 } s
  | none => s

/-- `CTX[c]` records where the loop stands (R191). -/
def enterSlot (c : Nat) (p : Slot × Nat) (s : State) : State :=
  setCtx c { s.ctx c with phase := p.1.phase, ringIdx := BitVec.ofNat 4 p.1.ringIdx, next := p.2 + 1 } s

/-- One handler call: a budgeted handler gets the whole remaining budget and its work is accounted; the REO-status handler
gets none (R192, R198, R225). -/
def callHandler (a : Agent) (c : Nat) (p : Slot × Nat) (s : State) : State :=
  let s1 := enterSlot c p s
  if p.1.budgeted then
    let budget := (s.ctx c).rem
    let (w, s2) := drawWork p.1.ringId budget s1
    account c w (record a (handlerOp c budget w p.1) s2)
  else drainReo (record a (handlerOp c 0 0 p.1) s1)

/-- One step of `ServiceLoop`, or nothing when it has no call left to make (R191). -/
def loopStep (a : Agent) (c : Nat) (s : State) : Option State :=
  (nextCall s.cfg (s.ctx c)).map fun p => callHandler a c p s

/-- End of the loop and of the invocation: `last_work` is the budget used, `busy <- 0` (R191, R254). -/
def endInvocation (c : Nat) (s : State) : State :=
  let x := s.ctx c
  setCtx c { x with phase := .idle, ringIdx := 0, lastWork := x.budgetIn - x.rem, busy := false, next := 0, runner := .svc } s

end Sys2Proof.Machine
end

