-- ==== Sys2Proof/Machine/Agents.lean ====
section
/-! DEFINITION. What starts a service pass besides a command (60_exceptions.md R250 to R260): delivery of an interrupt
event, the service agents `SVC[c]`, the timer fire and the poll pass. -/

namespace Sys2Proof.Machine

/-- Delivery of an event of a source: lost when the source is not registered, else it requests an invocation of the
owning context, once (R251, R252). -/
def deliver (source : Nat) (s : State) : State :=
  match s.disp.irqReg.find? (fun r => r.source.toNat == source) with
  | none => s
  | some r =>
    let x := s.ctx r.ctx.toNat
    if x.pend then s else setCtx r.ctx.toNat { x with pend := true, pendBudget := s.svcBudget } s

/-- The start step of an event-started invocation (R254). -/
def startPending (c : Nat) (s : State) : State :=
  let x := s.ctx c
  startInvocation .svc x.pendBudget c (setCtx c { x with pend := false } s)

/-- One step of an invocation that agent `a` runs: a handler call, or its end (R191, R254). -/
def serviceStep (a : Agent) (c : Nat) (s : State) : State :=
  match loopStep a c s with
  | some s1 => s1
  | none => endInvocation c s

/-- One step of `SVC[c]`: it starts when requested and not busy, and runs only its own invocation (R253, R254). -/
def svcStep (c : Nat) (s : State) : State :=
  let x := s.ctx c
  if c < s.cfg.numCtx then
    if x.busy then (if x.runner = .svc then serviceStep (.svc c) c s else s)
    else if x.pend then startPending c s
    else s
  else s

/-- The timer fires: ignored unless it is running (R257, R259). -/
def timerFire (s : State) : State :=
  if s.disp.timer = .running then { s with disp := { s.disp with timer := .stopped }, poll := .claim 0 } else s

/-- What the poll pass does after context `c` (R257). -/
def pollAfter (c : Nat) (s : State) : State :=
  { s with poll := if c + 1 < s.cfg.numCtx then .claim (c + 1) else .restart }

/-- One step of the poll pass (R257): contexts in ascending order, each with the maximal budget, then the restart of the
timer. It is held while the context it wants is busy. -/
def pollStep (s : State) : State :=
  match s.poll with
  | .idle => s
  | .claim c =>
    if (s.ctx c).busy then s
    else { startInvocation .poll budgetMax c s with poll := .serving c }
  | .serving c =>
    match loopStep .poll c s with
    | some s1 => s1
    | none => pollAfter c (endInvocation c s)
  | .restart => { hostTimerStart .poll s with poll := .idle }

end Sys2Proof.Machine
end

