-- ==== Sys2Proof/Machine/DispProc.lean ====
section
/-! DEFINITION. The steps of `DISP_ATTACH` and `DISP_DETACH` (42_dispatcher_commands.md R170 to R186), one port operation a
step. -/

namespace Sys2Proof.Machine

/-- The context numbers `0 .. NUM_CTX-1`. -/
def contexts (s : State) : List Nat := List.range s.cfg.numCtx

/-- Applies an update to every context record (R170, R180). -/
def mapContexts (f : Nat → Ctx → Ctx) (s : State) : State :=
  (contexts s).foldl (fun t c => setCtx c (f c (t.ctx c)) t) s

/-- The masks of a context, taken from a row of `INT_MASK_TABLE` (R172). -/
def withMasks (r : MaskRow) (x : Ctx) : Ctx :=
  { x with txMask := r.tx, rxDstMask := r.rxDst, rxExcMask := r.rxExc, rxRelMask := r.rxRel, reoMask := r.reo }

/-- Every context gets its masks from the table (R172). -/
def assignMasks (s : State) : State := mapContexts (fun c x => withMasks (maskRow s.cfg c) x) s

/-- Every context's masks are empty (R180, R185). -/
def clearMasks (s : State) : State := mapContexts (fun _ x => withMasks {} x) s

/-- Every requested invocation that has not started is cancelled (R184). -/
def cancelPending (s : State) : State := mapContexts (fun _ x => { x with pend := false, pendBudget := 0 }) s

/-- The relevant ring places as `(source_id, context)`, in the order of registration (R173). -/
def relevantSources (s : State) : List (Nat × Nat) :=
  (contexts s).flatMap fun c => (List.range 5).flatMap fun k =>
    ((List.range 8).filter fun i => (ctxMask (s.ctx c) k).getLsbD i).map fun i => (8 * k + i, c)

/-- The end of `DISP_ATTACH`: attached, `RES0` is the number of sources (R170). -/
def finishAttach (s : State) : State :=
  complete .ok (BitVec.ofNat 32 s.disp.irqReg.length) 0 { s with disp := { s.disp with attached := true } }

/-- Registration of the sources from number `r` on, or the end (R173). -/
def attachFrom (r : Nat) (s : State) : State :=
  if r < (relevantSources s).length then goto (.registerSource r) s else finishAttach s

/-- The registration of relevant source number `r` (R173). -/
def registerSourceStep (r : Nat) (s : State) : State :=
  let p := ((relevantSources s)[r]?).getD (0, 0)
  attachFrom (r + 1) (hostRegisterInterrupt p.1 p.2 s)

/-- The creation of the poll timer (R174). -/
def timerInitStep (s : State) : State := goto .timerStart (hostTimerInit s)

/-- The start of the poll timer (R174). -/
def timerStartStep (s : State) : State := finishAttach (hostTimerStart .seq s)

/-- The end of `DISP_DETACH`: masks empty, not attached (R180, R185). -/
def finishDetach (s : State) : State :=
  let s1 := clearMasks s
  completeOk { s1 with disp := { s1.disp with attached := false } }

/-- Once every source is freed: pending invocations are cancelled and running ones waited for (R184). -/
def detachFrom (s : State) : State :=
  if s.disp.irqReg = [] then goto .detachWait (cancelPending s) else goto .freeSource s

/-- The free of the last registered source (R182). -/
def freeSourceStep (s : State) : State := detachFrom (hostFreeLastInterrupt s)

/-- The stop of the poll timer (R183). -/
def timerStopStep (s : State) : State := goto .timerFree (hostTimerStop s)

/-- The free of the poll timer (R183). -/
def timerFreeStep (s : State) : State := finishDetach (hostTimerFree s)

/-- Some context is busy (R184). -/
def anyBusy (s : State) : Bool := (contexts s).any fun c => (s.ctx c).busy

end Sys2Proof.Machine
end

