-- ==== Sys2Proof/Machine/Plan.lean ====
section
/-! DEFINITION. Phase `PLAN` of `LINK_POOL_SETUP`: the sizing of the pool, pure arithmetic on the configuration
(41_link_pool_commands.md R131 to R140). -/

namespace Sys2Proof.Machine

/-- `raw`: the sum of the four descriptor counts for `m` clients (R132, R133). -/
def rawCount (c : Config) (m : Nat) : Nat :=
  let mpdu := m * c.avgTidsPerClient * c.avgMpdusPerTid / c.mpdusPerLinkDesc
  let qdesc := mpdu / c.mpduLinksPerQueueDesc
  let txMsdu := m * c.avgTidsPerClient * c.avgFlowsPerTid * c.avgMsdusPerFlow / c.msdusPerLinkDesc
  let rxMsdu := m * c.avgTidsPerClient * c.avgMpdusPerTid * c.avgMsdusPerMpdu / c.msdusPerLinkDesc
  mpdu + qdesc + txMsdu + rxMsdu

/-- `ALIGN_SLACK` (R13, R135). -/
def alignSlack (c : Config) : Nat := c.linkDescAlign - 1

/-- `tms`: the memory size of `total` descriptors (R135). -/
def poolMemory (c : Config) (total : Nat) : Nat := total * c.linkDescSize + alignSlack c

/-- `dpb`: descriptors per full bank (R136). -/
def descsPerBank (c : Config) : Nat := (c.maxAllocSize - alignSlack c) / c.linkDescSize

/-- All descriptors fit one bank (R136). -/
def oneBank (c : Config) (total : Nat) : Bool := decide (poolMemory c total ≤ c.maxAllocSize)

/-- `nb`: the number of banks of the plan (R136). -/
def banksNeeded (c : Config) (total : Nat) : Nat :=
  if oneBank c total then 1
  else total / descsPerBank c + (if total % descsPerBank c = 0 then 0 else 1)

/-- `pcount[b]`: the descriptors the plan gives bank `b` (R136). -/
def bankCount (c : Config) (total b : Nat) : Nat :=
  if oneBank c total then total
  else if b < total / descsPerBank c then descsPerBank c
  else total % descsPerBank c

/-- `psize[b]`: the size of bank `b`'s allocation (R136). -/
def bankSize (c : Config) (total b : Nat) : Nat :=
  if oneBank c total then poolMemory c total
  else if b < total / descsPerBank c then c.maxAllocSize
  else total % descsPerBank c * c.linkDescSize + alignSlack c

/-- `ilms`: the idle-list memory size (R138). -/
def idleListMemory (total : Nat) : Nat := idleEntrySize * total

/-- The path selector (R138; 90_conflicts.md C1). -/
def idlePathFor (c : Config) (total : Nat) : IdlePath :=
  if idleListMemory total ≤ c.maxAllocSize then .inRing else .scatter

/-- `nsb`: the scatter buffers of the plan (R139). -/
def scatterBufsNeeded (c : Config) (total : Nat) : Nat := ceilDiv (idleListMemory total) c.scatterBufSize

/-- `epsb`: entries per scatter buffer (R139). -/
def entriesPerScatterBuf (c : Config) : Nat := c.scatterBufSize / idleEntrySize

/-- The scatter plan keeps the limits of R139; the in-ring path has none. -/
def scatterPlanOk (c : Config) (total : Nat) : Bool :=
  match idlePathFor c total with
  | .inRing => true
  | .scatter =>
    decide (scatterBufsNeeded c total ≤ c.maxScatterBufs) &&
      decide (total ≤ scatterBufsNeeded c total * entriesPerScatterBuf c)

/-- `total` for `m` clients, or nothing where phase `PLAN` raises `CONFIG_ERR` (R131, R134, R137, R139). -/
def planTotal (c : Config) (m : Nat) : Option Nat :=
  if m = 0 then none
  else if 2 ^ 31 < rawCount c m then none
  else
    let total := pow2Ceil (rawCount c m)
    if c.maxLinkDescBanks < banksNeeded c total then none
    else if scatterPlanOk c total then some total
    else none

end Sys2Proof.Machine
end

