-- ==== Sys2Proof/Machine/Unwind.lean ====
section
/-! DEFINITION. `PoolUnwind`: the reverse-order unwinding of the pool, shared by a failed `LINK_POOL_SETUP` and by
`LINK_POOL_CLEANUP` (41_link_pool_commands.md R155, R160). Each free is a step of its own. -/

namespace Sys2Proof.Machine

/-- The end of `PoolUnwind`: `POOL <- all 0`, then the command raises its error or completes `OK`. `ENG_IDLE` becomes false
with `LINK_POOL_CLEANUP` (R162; log 20). -/
def finishUnwind (s : State) : State :=
  let idle := match s.seq.op with
    | .linkPoolCleanup => false
    | _ => s.engIdle
  raiseErr s.seq.failure { s with pool := {}, engIdle := idle }

/-- What `PoolUnwind` frees next once the idle-list ring is gone: scatter buffers, then banks (R155). -/
def unwindMemory (s : State) : State :=
  if 0 < s.pool.numScatterBufs then goto .unwindScatter s
  else if 0 < s.pool.numBanks then goto .unwindBank s
  else finishUnwind s

/-- `PoolUnwind()` followed by the raising of `e` (R155). -/
def startUnwind (e : Err) (s : State) : State :=
  let s1 := { s with seq := { s.seq with failure := e } }
  if (s.ring idleClass 0).registered then goto (.ringUnregister idleClass 0) s1 else unwindMemory s1

/-- The free of scatter buffer `POOL.num_scatter_bufs - 1` (R155). -/
def unwindScatterStep (s : State) : Out :=
  let n := s.pool.numScatterBufs - 1
  andThen (hostFreeCoherent ⟨(s.scat n).va, (s.scat n).pa, BitVec.ofNat 32 s.cfg.scatterBufSize⟩ s) fun s1 =>
    .next (unwindMemory (setScat n {} { s1 with pool := { s1.pool with numScatterBufs := n } }))

/-- The free of bank `POOL.num_banks - 1` (R155). -/
def unwindBankStep (s : State) : Out :=
  let n := s.pool.numBanks - 1
  andThen (hostFreeCoherent ⟨(s.bank n).rawVa, (s.bank n).rawPa, (s.bank n).size⟩ s) fun s1 =>
    .next (unwindMemory (setBank n {} { s1 with pool := { s1.pool with numBanks := n } }))

end Sys2Proof.Machine
end

