-- ==== Sys2Proof/Machine/RingProc.lean ====
section
/-! DEFINITION. The procedures `RingSetup` and `RingCleanup` (40_ring_commands.md R110, R118), one port operation a step;
`RING_SETUP`, `RING_CLEANUP` and the pool commands share them. -/

namespace Sys2Proof.Machine

/-- An error of `RingSetup`: raised to the host, or, inside `LINK_POOL_SETUP`, raised after `PoolUnwind` (R143, R155). -/
def ringFail (e : Err) (s : State) : State :=
  match s.seq.op with
  | .linkPoolSetup => startUnwind e s
  | _ => raiseErr e s

/-- The checks before any allocation: each gives `CONFIG_ERR` (R111). -/
def ringRequestOk (s : State) (r : RingReq) : Bool :=
  slotExists s.cfg r.cls r.inst && !(s.ring r.cls r.inst).registered && decide (r.entries ≠ 0) &&
    decide (ringSize s.cfg r.cls r.entries ≤ wordMax)

/-- `RingSetup(k, i, o, n)` up to its first port operation (R110, R111). -/
def ringEnter (r : RingReq) (s : State) : State :=
  if ringRequestOk s r then goto (.ringAlloc r) s else ringFail .configErr s

/-- The allocation of `RingSetup` (R112). -/
def ringAllocStep (r : RingReq) (s : State) : State :=
  match hostAllocCoherent (ringSize s.cfg r.cls r.entries) s with
  | (none, s1) => ringFail .allocFail s1
  | (some a, s1) => goto (.ringRegister r a) s1

/-- The low-threshold watermark: an eighth of the entry count for a buffer-supply class (R114). -/
def lowThreshold (c : Config) (r : RingReq) : Nat :=
  if (classOf c r.cls).bufferSupply then r.entries / 8 else 0

/-- The record that a successful `RingSetup` stores (R110, R113, R114). -/
def ringRecord (c : Config) (r : RingReq) (a : Alloc) (h : Handle) : RingRec where
  registered := true
  owner := BitVec.ofNat 4 r.owner
  rawVa := a.va
  rawPa := a.pa
  rawSize := a.size
  baseVa := alignedVa a.va a.pa (classOf c r.cls).align
  basePa := alignedPa a.pa (classOf c r.cls).align
  numEntries := BitVec.ofNat 32 r.entries
  entrySize := (classOf c r.cls).entrySize
  intrTimerThres := c.intrTimerThres
  intrBatchThres := 1
  lowThres := BitVec.ofNat 32 (lowThreshold c r)
  lowThresIntrEn := (classOf c r.cls).bufferSupply
  hnd := h

/-- The parameters given to the engine: those of the record (R114, R217). -/
def ringParams (x : RingRec) : RingParams where
  baseVa := x.baseVa
  basePa := x.basePa
  numEntries := x.numEntries
  intrTimerThres := x.intrTimerThres
  intrBatchThres := x.intrBatchThres
  lowThres := x.lowThres
  lowThresIntrEn := x.lowThresIntrEn

/-- The return of `RingSetup`: `RING_SETUP` completes with its results, `LINK_POOL_SETUP` goes on to fill the ring
(R110, R130). -/
def ringReturn (r : RingReq) (s : State) : State :=
  match s.seq.op with
  | .linkPoolSetup => goto .accessStart s
  | _ =>
    complete .ok (BitVec.ofNat 32 (8 * r.cls + r.inst)) ((s.ring r.cls r.inst).basePa.extractLsb' 0 32) s

/-- The producer state of the idle-list ring is fresh after its setup and 0 after its cleanup (R37, R110). -/
def clearProducer (k : Nat) (s : State) : State := if k = idleClass then { s with producer := {} } else s

/-- The registration of `RingSetup` (R115). -/
def ringRegisterStep (r : RingReq) (a : Alloc) (s : State) : State :=
  match engRingRegister r (ringParams (ringRecord s.cfg r a 0)) s with
  | (none, s1) => goto (.ringReject a) s1
  | (some h, s1) => ringReturn r (clearProducer r.cls (setRing r.cls r.inst (ringRecord s.cfg r a h) s1))

/-- The free that follows a rejected registration, then `REG_FAIL` (R115). -/
def ringRejectStep (a : Alloc) (s : State) : Out :=
  andThen (hostFreeCoherent a s) fun s1 => .next (ringFail .regFail s1)

/-- `RingCleanup` of a registered ring: the engine is told first (R118, R120). -/
def ringUnregisterStep (k i : Nat) (s : State) : Out :=
  andThen (engRingUnregister (s.ring k i).hnd s) fun s1 => .next (goto (.ringFree k i) s1)

/-- The return of `RingCleanup`: `RING_CLEANUP` completes, `PoolUnwind` goes on (R118, R155). -/
def ringCleanupReturn (s : State) : State :=
  match s.seq.op with
  | .ringCleanup => completeOk s
  | _ => unwindMemory s

/-- `RingCleanup` of a registered ring: then the raw region is freed and the record cleared (R118, R120). -/
def ringFreeStep (k i : Nat) (s : State) : Out :=
  andThen (hostFreeCoherent ⟨(s.ring k i).rawVa, (s.ring k i).rawPa, (s.ring k i).rawSize⟩ s) fun s1 =>
    .next (ringCleanupReturn (clearProducer k (setRing k i {} s1)))

end Sys2Proof.Machine
end

