-- ==== Sys2Proof/Machine/PoolProc.lean ====
section
/-! DEFINITION. The phases `BANKS`, `SCATTER_ALLOC`, `FILL` and `PUBLISH` of `LINK_POOL_SETUP`
(41_link_pool_commands.md R130, R141 to R153), one port operation a step. -/

namespace Sys2Proof.Machine

/-- `total`: set when phase `BANKS` begins (R130). -/
def poolTotal (s : State) : Nat := s.pool.totalLinkDescs.toNat

/-- After the last bank: the idle-list ring, or the scatter buffers (R130, R138). -/
def afterBanks (s : State) : State :=
  match idlePathFor s.cfg (poolTotal s) with
  | .inRing => ringEnter ⟨idleClass, 0, 0, poolTotal s⟩ s
  | .scatter => goto (.scatterAlloc 0) s

/-- The record of a bank (R39, R130, R142). -/
def bankRecord (c : Config) (a : Alloc) (count : Nat) : Bank where
  rawVa := a.va
  rawPa := a.pa
  size := a.size
  baseVa := alignedVa a.va a.pa c.linkDescAlign
  basePa := alignedPa a.pa c.linkDescAlign
  count := BitVec.ofNat 32 count

/-- The allocation of bank `b` (R141). -/
def bankAllocStep (b : Nat) (s : State) : State :=
  match hostAllocCoherent (bankSize s.cfg (poolTotal s) b) s with
  | (none, s1) => startUnwind .allocFail s1
  | (some a, s1) =>
    let s2 := setBank b (bankRecord s.cfg a (bankCount s.cfg (poolTotal s) b))
      { s1 with pool := { s1.pool with numBanks := b + 1 } }
    if b + 1 < banksNeeded s.cfg (poolTotal s) then goto (.bankAlloc (b + 1)) s2 else afterBanks s2

/-- The address of descriptor `j` of bank `b` (R70 (b), R144). -/
def descAddress (s : State) (b j : Nat) : PAddr :=
  BitVec.ofNat 40 ((s.bank b).basePa.toNat + j * s.cfg.linkDescSize)

/-- The descriptor after descriptor `j` of bank `b` in the walk (R144). -/
def nextDesc (s : State) (b j : Nat) : Option (Nat × Nat) :=
  if j + 1 < (s.bank b).count.toNat then some (b, j + 1)
  else if b + 1 < s.pool.numBanks then some (b + 1, 0)
  else none

/-- `SEQ_CURSOR` counts one more entry written (R30, R130). -/
def countEntry (s : State) : State := { s with seq := { s.seq with cursor := s.seq.cursor + 1 } }

/-- The opening of the bracket (R145). -/
def accessStartStep (s : State) : Out := andThen (engSrcAccessStart s) fun s1 => .next (goto (.getNext 0 0) s1)

/-- The slot of the next entry (R146). -/
def getNextStep (b j : Nat) (s : State) : Out :=
  andThen (engSrcGetNext s) fun s1 => .next (goto (.setLink (producerSlot s) b j) s1)

/-- The entry of descriptor `j` of bank `b` in the ring (R146, R228 (a)). -/
def setLinkStep (slot : PAddr) (b j : Nat) (s : State) : Out :=
  if !s.producer.bracketOpen then .refused .outsideBracket
  else
    andThen (engSetLinkAddr slot b (descAddress s b j) s) fun s1 =>
      match nextDesc s b j with
      | some (b', j') => .next (goto (.getNext b' j') (countEntry s1))
      | none => .next (goto .accessEnd (countEntry s1))

/-- The closing of the bracket (R146). -/
def accessEndStep (s : State) : State := goto .publishRing (engSrcAccessEnd s)

/-- The pool is valid and `LINK_POOL_SETUP` completes (R130, R153). -/
def finishPool (s : State) : State :=
  complete .ok s.pool.totalLinkDescs (BitVec.ofNat 32 (s.pool.numBanks + 2 ^ 16 * s.pool.numScatterBufs))
    { s with pool := { s.pool with valid := true } }

/-- Publication of the ring (R147). -/
def publishRingStep (s : State) : Out :=
  match engPublishRing s with
  | .next (true, s1) =>
    .next (finishPool { s1 with pool := { s1.pool with idlePath := .inRing, numScatterBufs := 0, tailOffset := 0 } })
  | .next (false, s1) => .next (startUnwind .regFail s1)
  | .fault r => .fault r
  | .refused r => .refused r

/-- The allocation of scatter buffer `n` (R148). -/
def scatterAllocStep (n : Nat) (s : State) : State :=
  match hostAllocCoherent s.cfg.scatterBufSize s with
  | (none, s1) => startUnwind .allocFail s1
  | (some a, s1) =>
    let s2 := setScat n ⟨a.va, a.pa⟩ { s1 with pool := { s1.pool with numScatterBufs := n + 1 } }
    if n + 1 < scatterBufsNeeded s.cfg (poolTotal s) then goto (.scatterAlloc (n + 1)) s2
    else goto (.scatterLink 0 0) s2

/-- The scatter address of entry number `n` (R76, R150). -/
def scatterSlot (s : State) (n : Nat) : PAddr :=
  let e := entriesPerScatterBuf s.cfg
  BitVec.ofNat 40 ((s.scat (n / e)).pa.toNat + idleEntrySize * (n % e))

/-- The entry of descriptor `j` of bank `b` in the scatter buffers; after the last one the tail offset is set
(R149 to R151). -/
def scatterLinkStep (b j : Nat) (s : State) : Out :=
  andThen (engSetLinkAddr (scatterSlot s s.seq.cursor) b (descAddress s b j) s) fun s1 =>
    match nextDesc s b j with
    | some (b', j') => .next (goto (.scatterLink b' j') (countEntry s1))
    | none =>
      let tail := idleEntrySize * (s.seq.cursor % entriesPerScatterBuf s.cfg)
      .next (goto .publishScatter
        (countEntry { s1 with pool := { s1.pool with tailOffset := BitVec.ofNat 32 tail } }))

/-- Publication of the scatter buffers (R152). -/
def publishScatterStep (s : State) : State :=
  match engPublishScatter s with
  | (true, s1) => finishPool { s1 with pool := { s1.pool with idlePath := .scatter } }
  | (false, s1) => startUnwind .regFail s1

end Sys2Proof.Machine
end

