-- ==== Sys2Proof/Machine/Sequencer.lean ====
section
/-! DEFINITION. The command sequencer `SEQ` (10_state.md R30, 30_encoding.md R92): one step at its position, and a command
run until it completes or is held. -/

namespace Sys2Proof.Machine

/-- The claim of the context by `SERVICE` (R190): the test of `busy` and its setting are one step. -/
def serviceClaimStep (c : Nat) (s : State) : State :=
  goto (.serving c) (startInvocation .seq s.seq.arg c s)

/-- One step of `SERVICE` inside the loop; at its end the command completes with `work_done` (R190). -/
def servingStep (c : Nat) (s : State) : State :=
  match loopStep .seq c s with
  | some s1 => s1
  | none =>
    let s1 := endInvocation c s
    complete .ok (s1.ctx c).lastWork 0 s1

/-- The sequencer is held: `SERVICE` while the context is busy (R197), `DISP_DETACH` while a context is busy (R184) or a
poll pass runs (R183). -/
def seqHeld (s : State) : Bool :=
  match s.seq.pos with
  | .serviceClaim c => (s.ctx c).busy
  | .detachWait => anyBusy s
  | .timerStop => decide (s.disp.timer = .stopped)
  | _ => false

/-- What the sequencer does at its position when it is not held (R30). Position `start` takes the decoded command and is
no case of this function. -/
def posStep (s : State) : Out :=
  match s.seq.pos with
  | .idle => .next s
  | .start => .next s
  | .ringAlloc r => .next (ringAllocStep r s)
  | .ringRegister r a => .next (ringRegisterStep r a s)
  | .ringReject a => ringRejectStep a s
  | .ringUnregister k i => ringUnregisterStep k i s
  | .ringFree k i => ringFreeStep k i s
  | .bankAlloc b => .next (bankAllocStep b s)
  | .accessStart => accessStartStep s
  | .getNext b j => getNextStep b j s
  | .setLink slot b j => setLinkStep slot b j s
  | .accessEnd => .next (accessEndStep s)
  | .publishRing => publishRingStep s
  | .scatterAlloc n => .next (scatterAllocStep n s)
  | .scatterLink b j => scatterLinkStep b j s
  | .publishScatter => .next (publishScatterStep s)
  | .unwindScatter => unwindScatterStep s
  | .unwindBank => unwindBankStep s
  | .registerSource r => .next (registerSourceStep r s)
  | .timerInit => .next (timerInitStep s)
  | .timerStart => .next (timerStartStep s)
  | .freeSource => .next (freeSourceStep s)
  | .detachWait => .next (finishDetach s)
  | .timerStop => .next (timerStopStep s)
  | .timerFree => .next (timerFreeStep s)
  | .serviceClaim c => .next (serviceClaimStep c s)
  | .serving c => .next (servingStep c s)

/-- One step of the sequencer past its start: nothing changes while it is held. -/
def seqStep (s : State) : Out := if seqHeld s then .next s else posStep s

/-- Nothing more happens in this command without another agent: it has completed, is not begun, or is held. -/
def seqStopped (s : State) : Bool :=
  match s.seq.pos with
  | .idle => true
  | .start => true
  | _ => seqHeld s

/-- The sequencer's steps, at most `n`, until it stops. -/
def runSeq : Nat → State → Out
  | 0, s => .next s
  | n + 1, s => if seqStopped s then .next s else andThen (seqStep s) (runSeq n)

/-- More steps than any command has: at most 256 banks of fewer than `2^32` descriptors, two port operations each, and a
few hundred steps more (R297; log 25). -/
def seqFuel : Nat := 2 ^ 42

/-- A command from where it stands to its completion or its hold. The first step of an accepted command is `begin`. -/
def runCommand (begin : State → State) (s : State) : Out :=
  match s.seq.pos with
  | .start => runSeq seqFuel (begin s)
  | _ => runSeq seqFuel s

end Sys2Proof.Machine
end

