-- ==== Sys2Proof/Machine/Dispatcher.lean ====
section
/-! DEFINITION. `DISP_ATTACH` and `DISP_DETACH` (42_dispatcher_commands.md R170, R180): each command's first step and its
meaning. -/

namespace Sys2Proof.Machine

/-- `DISP_ATTACH` up to its first port operation: the masks of every context are assigned (R170 to R172). -/
def beginDispAttach (s : State) : State :=
  let s1 := setOp .dispAttach s
  if s.disp.attached then raiseErr .configErr s1
  else
    match s.mode with
    | .event => attachFrom 0 (assignMasks s1)
    | .poll => goto .timerInit (assignMasks s1)

/-- `DISP_DETACH` up to its first port operation or hold; nothing when not attached (R180, R181). -/
def beginDispDetach (s : State) : State :=
  let s1 := setOp .dispDetach s
  if s.disp.attached then
    match s.mode with
    | .event => detachFrom s1
    | .poll => goto .timerStop s1
  else completeOk s1

/-- The meaning of `DISP_ATTACH` (R170). -/
def execDispAttach (s : State) : Out := runCommand beginDispAttach s

/-- The meaning of `DISP_DETACH` (R180). -/
def execDispDetach (s : State) : Out := runCommand beginDispDetach s

end Sys2Proof.Machine
end

