-- ==== Sys2Proof/Machine/Pool.lean ====
section
/-! DEFINITION. `LINK_POOL_SETUP` and `LINK_POOL_CLEANUP` (41_link_pool_commands.md R130, R160): each command's first step
and its meaning. -/

namespace Sys2Proof.Machine

/-- `LINK_POOL_SETUP`, phase `PLAN`: no port operation; either `CONFIG_ERR` or the start of phase `BANKS`
(R130, R131, R140). -/
def beginLinkPoolSetup (s : State) : State :=
  let s1 := setOp .linkPoolSetup s
  if s.pool.valid then raiseErr .configErr s1
  else
    match planTotal s.cfg (scalar s) with
    | none => raiseErr .configErr s1
    | some total =>
      goto (.bankAlloc 0) { s1 with pool := { s1.pool with totalLinkDescs := BitVec.ofNat 32 total } }

/-- `LINK_POOL_CLEANUP` is `PoolUnwind` and completes `OK` (R160). -/
def beginLinkPoolCleanup (s : State) : State := startUnwind .ok (setOp .linkPoolCleanup s)

/-- The meaning of `LINK_POOL_SETUP` (R130). -/
def execLinkPoolSetup (s : State) : Out := runCommand beginLinkPoolSetup s

/-- The meaning of `LINK_POOL_CLEANUP` (R160). -/
def execLinkPoolCleanup (s : State) : Out := runCommand beginLinkPoolCleanup s

end Sys2Proof.Machine
end

