-- ==== Sys2Proof/Machine/Ring.lean ====
section
/-! DEFINITION. `NOP`, `RING_SETUP` and `RING_CLEANUP` (40_ring_commands.md R110 to R125): each command's first step and its
meaning. -/

namespace Sys2Proof.Machine

/-- `NOP` completes `OK` (R125). -/
def beginNop (s : State) : State := completeOk s

/-- `RING_SETUP` up to its first port operation: class 5 belongs to the pool (R110, R117 (d)). -/
def beginRingSetup (cls inst owner : Nat) (s : State) : State :=
  let s1 := setOp .ringSetup s
  if cls = idleClass then raiseErr .configErr s1 else ringEnter ⟨cls, inst, owner, scalar s⟩ s1

/-- `RING_CLEANUP` up to its first port operation: a ring that was never registered is a warning (R118, R119). -/
def beginRingCleanup (cls inst : Nat) (s : State) : State :=
  let s1 := setOp .ringCleanup s
  if cls = idleClass then raiseErr .configErr s1
  else if slotExists s.cfg cls inst then
    if (s.ring cls inst).registered then goto (.ringUnregister cls inst) s1 else completeOk (warn s1)
  else raiseErr .configErr s1

/-- The meaning of `NOP` (R125). -/
def execNop (s : State) : Out := runCommand beginNop s

/-- The meaning of `RING_SETUP` (R110). -/
def execRingSetup (cls inst owner : Nat) (s : State) : Out := runCommand (beginRingSetup cls inst owner) s

/-- The meaning of `RING_CLEANUP` (R118). -/
def execRingCleanup (cls inst : Nat) (s : State) : Out := runCommand (beginRingCleanup cls inst) s

end Sys2Proof.Machine
end

