-- ==== Sys2Proof/Machine/Service.lean ====
section
/-! DEFINITION. `SERVICE` (43_service_command.md R190): the command's first step and its meaning. -/

namespace Sys2Proof.Machine

/-- `SERVICE`: a context number out of range is `CONFIG_ERR`, before anything else (R190). -/
def beginService (ctx : Nat) (s : State) : State :=
  let s1 := setOp .service s
  if ctx < s.cfg.numCtx then goto (.serviceClaim ctx) s1 else raiseErr .configErr s1

/-- The meaning of `SERVICE` (R190). -/
def execService (ctx : Nat) (s : State) : Out := runCommand (beginService ctx) s

end Sys2Proof.Machine
end

