-- ==== Sys2Proof/Machine/Dispatch.lean ====
section
/-! DEFINITION. The meaning of every command, one arm per constructor (30_encoding.md R96). -/

namespace Sys2Proof.Machine

def exec (i : Instr) (s : State) : Host.Outcome State Fault Refusal :=
  match i with
  | .nop => Sys2Proof.Machine.execNop s
  | .ringSetup cls inst owner => Sys2Proof.Machine.execRingSetup cls inst owner s
  | .ringCleanup cls inst => Sys2Proof.Machine.execRingCleanup cls inst s
  | .linkPoolSetup => Sys2Proof.Machine.execLinkPoolSetup s
  | .linkPoolCleanup => Sys2Proof.Machine.execLinkPoolCleanup s
  | .dispAttach => Sys2Proof.Machine.execDispAttach s
  | .dispDetach => Sys2Proof.Machine.execDispDetach s
  | .service ctx => Sys2Proof.Machine.execService ctx s

end Sys2Proof.Machine
end

