-- ==== Sys2Proof/WellFormed.lean ====
section
/-! DEFINITION. Which commands have a word: every operand fits its field (30_encoding.md R91, R93). A field value that fits
but is out of range for the configuration is no illegal encoding (R97); the command's own rule raises `CONFIG_ERR` for it. -/

namespace Sys2Proof

/-- An operand fits a 4-bit field (R91: `CLS`, `INST`, `OWNER`, `CTXN`). -/
def fitsField (n : Nat) : Bool := decide (n < 16)

/-- Every operand of the command fits the field that carries it. -/
def WellFormed : Instr → Bool
  | .nop => true
  | .ringSetup cls inst owner => fitsField cls && fitsField inst && fitsField owner
  | .ringCleanup cls inst => fitsField cls && fitsField inst
  | .linkPoolSetup => true
  | .linkPoolCleanup => true
  | .dispAttach => true
  | .dispDetach => true
  | .service ctx => fitsField ctx

end Sys2Proof
end

