-- ==== Sys2Proof/Decode.lean ====
section
/-! DEFINITION. Reading a command from its word (30_encoding.md R90 to R98), total on every word, and the encoder. -/

namespace Sys2Proof

/-- Why a word is no command (R95, R98). -/
inductive DecodeError where
  /-- Bits 31:24 are none of the eight opcodes. -/
  | reservedOpcode (opc : Nat)
  /-- A bit the format marks "reserved, must be 0" is 1. -/
  | reservedBits (opc : Nat)
  /-- Fewer than four bytes were given. -/
  | shortWord
deriving DecidableEq, Repr

/-- The field `w[lo+len-1 : lo]` as a number (R93). -/
def wordField (w : Word) (lo len : Nat) : Nat := (w.extractLsb' lo len).toNat

/-- `i` when the low `len` bits of `w`, the format's reserved bits, are all 0 (R95). -/
def whenReservedZero (w : Word) (len : Nat) (i : Instr) : Except DecodeError Instr :=
  if wordField w 0 len = 0 then .ok i else .error (.reservedBits (wordField w 24 8))

/-- Decoding of a command word (R95, R96). -/
def decode (w : Word) : Except DecodeError Instr :=
  match wordField w 24 8 with
  | 0x00 => whenReservedZero w 24 .nop
  | 0x10 => whenReservedZero w 12 (.ringSetup (wordField w 20 4) (wordField w 16 4) (wordField w 12 4))
  | 0x11 => whenReservedZero w 16 (.ringCleanup (wordField w 20 4) (wordField w 16 4))
  | 0x20 => whenReservedZero w 24 .linkPoolSetup
  | 0x21 => whenReservedZero w 24 .linkPoolCleanup
  | 0x30 => whenReservedZero w 24 .dispAttach
  | 0x31 => whenReservedZero w 24 .dispDetach
  | 0x40 => whenReservedZero w 20 (.service (wordField w 20 4))
  | opc => .error (.reservedOpcode opc)

/-- The word with opcode `opc` and the number `fields` in bits 23:0. -/
def wordOf (opc fields : Nat) : Word := BitVec.ofNat 32 (opc * 2 ^ 24 + fields)

/-- The word of a command (R91, R96). -/
def encode : Instr → Word
  | .nop => wordOf 0x00 0
  | .ringSetup cls inst owner => wordOf 0x10 (cls * 2 ^ 20 + inst * 2 ^ 16 + owner * 2 ^ 12)
  | .ringCleanup cls inst => wordOf 0x11 (cls * 2 ^ 20 + inst * 2 ^ 16)
  | .linkPoolSetup => wordOf 0x20 0
  | .linkPoolCleanup => wordOf 0x21 0
  | .dispAttach => wordOf 0x30 0
  | .dispDetach => wordOf 0x31 0
  | .service ctx => wordOf 0x40 (ctx * 2 ^ 20)

/-- The bytes of a 32-bit register value, lowest address first: the register space is little-endian (20_memory.md R69). -/
def wordBytes (w : Word) : List Byte :=
  [w.extractLsb' 0 8, w.extractLsb' 8 8, w.extractLsb' 16 8, w.extractLsb' 24 8]

/-- Decoding of a command laid out in bytes, with the bytes that follow it. -/
def decodeBytes : List Byte → Except DecodeError (Instr × List Byte)
  | b0 :: b1 :: b2 :: b3 :: rest =>
    match decode (b3 ++ b2 ++ b1 ++ b0) with
    | .ok i => .ok (i, rest)
    | .error e => .error e
  | _ => .error .shortWord

/-- The word whose low `nbits` bits are those of `w` and whose other bits are 0. -/
def tableWord (nbits w : Nat) : Word := BitVec.ofNat 32 (w % 2 ^ nbits)

/-- The command read from the bits `w` of an opcode-table row, laid out as the register space stores them. -/
def decodeTableWord (nbits w : Nat) : Option Instr :=
  match decodeBytes (wordBytes (tableWord nbits w)) with
  | .ok (i, _) => some i
  | .error _ => none

end Sys2Proof
end

