-- ==== Sys2Proof/Machine/Registers.lean ====
section
/-! DEFINITION. The register window (10_state.md R26 to R51, 20_memory.md R72) and the host's accesses to it, by offset from
the window's base and by address (R74). -/

namespace Sys2Proof.Machine

/-- The low 32 bits of a physical address. -/
def paLow (p : PAddr) : Word := p.extractLsb' 0 32

/-- Bits 39:32 of a physical address, in bits 7:0. -/
def paHigh (p : PAddr) : Word := (p.extractLsb' 32 8).setWidth 32

/-- The single registers, offsets below 0x100 (R26). -/
def mainReg (s : State) : Nat → Word
  | 0x000 => 0x52494C4D
  | 0x004 => s.cmd
  | 0x008 => s.arg0
  | 0x00C => statusWord s
  | 0x010 => s.res0
  | 0x014 => s.res1
  | 0x018 => s.warnCnt
  | 0x01C => faultWord s
  | 0x020 => s.svcBudget
  | 0x024 => s.pollPeriod
  | 0x028 => s.pool.totalLinkDescs
  | 0x02C => BitVec.ofNat 32 (s.pool.numBanks + 2 ^ 16 * s.pool.numScatterBufs)
  | 0x030 => s.pool.tailOffset
  | 0x034 => seqStatWord s
  | 0x038 => BitVec.ofNat 32 s.seq.cursor
  | _ => 0

/-- The window of a context (R46). -/
def ctxReg (x : Ctx) : Nat → Word
  | 0x00 => x.txMask.setWidth 32
  | 0x04 => x.rxDstMask.setWidth 32
  | 0x08 => x.rxExcMask.setWidth 32
  | 0x0C => x.rxRelMask.setWidth 32
  | 0x10 => x.reoMask.setWidth 32
  | 0x14 =>
    BitVec.ofNat 32 (bitNat x.pend + 2 * bitNat x.busy + 2 ^ 4 * x.phase.code + 2 ^ 8 * x.ringIdx.toNat)
  | 0x18 => x.lastWork
  | 0x1C => x.rem
  | _ => 0

/-- The window of a bank (R42). -/
def bankReg (b : Bank) : Nat → Word
  | 0x0 => paLow b.basePa
  | 0x4 => paHigh b.basePa
  | 0x8 => b.size
  | 0xC => b.count
  | _ => 0

/-- The window of a scatter buffer (R44). -/
def scatReg (x : Scatter) : Nat → Word
  | 0x0 => paLow x.pa
  | 0x4 => paHigh x.pa
  | _ => 0

/-- The window of a ring (R38). -/
def ringReg (r : RingRec) : Nat → Word
  | 0x00 => paLow r.basePa
  | 0x04 =>
    paHigh r.basePa + BitVec.ofNat 32
      (2 ^ 8 * bitNat r.registered + 2 ^ 9 * bitNat r.lowThresIntrEn + 2 ^ 12 * r.owner.toNat)
  | 0x08 => r.numEntries
  | 0x0C => r.hnd
  | 0x10 => paLow r.rawPa
  | 0x14 => paHigh r.rawPa
  | 0x18 => r.rawSize
  | 0x1C => r.lowThres
  | _ => 0

/-- The register at an offset that is a multiple of 4; what is not listed, and the windows beyond the configured counts,
read 0 (R26). -/
def readReg (s : State) (offset : Nat) : Word :=
  if offset < 0x100 then mainReg s offset
  else if offset < 0x300 then
    let c := (offset - 0x100) / 0x20
    if c < s.cfg.numCtx then ctxReg (s.ctx c) ((offset - 0x100) % 0x20) else 0
  else if offset < 0x400 then 0
  else if offset < 0x1400 then
    let b := (offset - 0x400) / 0x10
    if b < s.cfg.maxLinkDescBanks then bankReg (s.bank b) ((offset - 0x400) % 0x10) else 0
  else if offset < 0x1C00 then
    let n := (offset - 0x1400) / 0x8
    if n < s.cfg.maxScatterBufs then scatReg (s.scat n) ((offset - 0x1400) % 0x8) else 0
  else if offset < 0x2000 then 0
  else if offset < 0x3000 then
    let place := (offset - 0x2000) / 0x20
    if slotExists s.cfg (place / 8) (place % 8) then
      ringReg (s.ring (place / 8) (place % 8)) ((offset - 0x2000) % 0x20)
    else 0
  else 0

/-- The access has the one width and an offset the window takes (R72). -/
def accessOk (width offset : Nat) : Bool := decide (width = 4) && decide (offset % 4 = 0)

/-- What a word decodes to, if it is a command (R95). -/
def decoded (w : Word) : Option Instr :=
  match decode w with
  | .ok i => some i
  | .error _ => none

/-- A host write of `CMD`: accepted, or, while a command runs, dropped with `FAULT.CMD_OVERRUN` (R92 (a), (d)). -/
def writeCmd (w : Word) (s : State) : State :=
  if s.busy then raiseCmdOverrun s else accept w (decoded w) s

/-- A host write (R26, R50, R72). -/
def hostWrite (width offset : Nat) (v : Word) (s : State) : State :=
  if accessOk width offset then
    match offset with
    | 0x004 => writeCmd v s
    | 0x008 => { s with arg0 := v }
    | 0x020 => { s with svcBudget := v }
    | 0x024 => { s with pollPeriod := v }
    | _ => s
  else s

/-- A host read: no side effect on the Manager (R72). -/
def hostRead (width offset : Nat) (s : State) : State :=
  { s with hostData := if accessOk width offset then readReg s offset else 0 }

/-- The offset of an address from the window's base; an address below the base is none of the Manager's (R26, R74; log 19). -/
def windowOffset (c : Config) (address : Nat) : Option Nat :=
  if c.mgrBase ≤ address then some (address - c.mgrBase) else none

/-- A host write at an address of the register space (R74). -/
def hostWriteAt (width address : Nat) (v : Word) (s : State) : State :=
  match windowOffset s.cfg address with
  | some offset => hostWrite width offset v s
  | none => s

/-- A host read at an address of the register space (R74). -/
def hostReadAt (width address : Nat) (s : State) : State :=
  match windowOffset s.cfg address with
  | some offset => hostRead width offset s
  | none => s

end Sys2Proof.Machine
end

