-- ==== Sys2Proof/Machine/Issue.lean ====
section
/-! DEFINITION. How the sequencer takes up the accepted word (30_encoding.md R92, R95, R98): the first step of a command,
the completion of an illegal word, one step of the sequencer, and the storing of a word where it is taken up. -/

namespace Sys2Proof.Machine

/-- The first step of a command. -/
def beginCommand (i : Instr) (s : State) : State :=
  match i with
  | .nop => beginNop s
  | .ringSetup cls inst owner => beginRingSetup cls inst owner s
  | .ringCleanup cls inst => beginRingCleanup cls inst s
  | .linkPoolSetup => beginLinkPoolSetup s
  | .linkPoolCleanup => beginLinkPoolCleanup s
  | .dispAttach => beginDispAttach s
  | .dispDetach => beginDispDetach s
  | .service ctx => beginService ctx s

/-- A context's mask names the ring (R170, R288). -/
def namedByMask (k i : Nat) (s : State) : Bool :=
  (List.range s.cfg.numCtx).any fun c => (ctxMask (s.ctx c) k).getLsbD i

/-- A command about to begin breaks a precondition of R288 to R294, and the state shows it. The one such case is
`RING_CLEANUP` of a ring that an attached context's mask names (R288); the Manager checks nothing, and it is the trace that
the model refuses (R295; log 24). -/
def breaksPrecondition (i : Instr) (s : State) : Bool :=
  match i with
  | .nop => false
  | .ringSetup _ _ _ => false
  | .ringCleanup cls inst =>
    decide (s.seq.pos = .start) && s.disp.attached && (s.ring cls inst).registered && namedByMask cls inst s
  | .linkPoolSetup => false
  | .linkPoolCleanup => false
  | .dispAttach => false
  | .dispDetach => false
  | .service _ => false

/-- An illegal word completes with `ILLEGAL_CMD` and changes nothing else (R98). -/
def completeIllegal (s : State) : State := raiseErr .illegalCmd s

/-- One step of `SEQ`: the first step of the accepted word, or the step at the sequencer's position (R92 (b)). A command
whose precondition the state shows broken is refused (R295). -/
def seqAgentStep (s : State) : Out :=
  match s.seq.pos with
  | .start =>
    match decoded s.cmd with
    | some i => if breaksPrecondition i s then .refused .ringStillServiced else .next (beginCommand i s)
    | none => .next (completeIllegal s)
  | _ => seqStep s

/-- `s` with the word accepted as a host write of `CMD` to an idle sequencer would accept it (R92 (a)), and the sequencer's
run of it as the very next move. -/
def placeWord (w : Word) (s : State) : State :=
  let s1 := accept w (decoded w) s
  { s1 with env := { s1.env with moves := .command :: s1.env.moves } }

end Sys2Proof.Machine
end

