-- ==== Sys2Proof/Machine/World.lean ====
section
/-! DEFINITION. What the world outside does to the state: whole-system reset (70_reset_and_hazards.md R280, R281), writes of
other agents to coherent memory (R66, R293, R295), and the settings of the reference environment (R101). -/

namespace Sys2Proof.Machine

/-- The reference environment as it is at the start of a program (R227). -/
def freshRef (e : Env) : Env := { e with reference := e.reference.map fun _ => {} }

/-- Whole-system reset: host runtime, engine and Manager together; no port operation (R281). The strap is sampled (R283).
The list of moves to come and the counters of the free draws go on. -/
def systemReset (strap : Mode) (s : State) : State :=
  { State.resetWith s.cfg strap with env := freshRef s.env, hostData := s.hostData }

/-- The address lies in a region. -/
def inRegion (x : Nat) (pa size : Nat) : Bool := decide (pa ≤ x) && decide (x < pa + size)

/-- The address lies in the idle list that `LINK_POOL_SETUP` has not yet published: the idle-list ring, or a scatter
buffer (R81, R293). -/
def inUnpublishedList (s : State) (x : Nat) : Bool :=
  !s.pool.valid &&
    (((s.ring idleClass 0).registered &&
        inRegion x (s.ring idleClass 0).rawPa.toNat (s.ring idleClass 0).rawSize.toNat) ||
      (List.range s.pool.numScatterBufs).any fun n => inRegion x (s.scat n).pa.toNat s.cfg.scatterBufSize)

/-- The engine or a handler writes a byte on its own account (R66): free, but for the exclusivity of R293, whose breach the
model refuses (R295). -/
def extWrite (x : PAddr) (v : Byte) (s : State) : Out :=
  if inUnpublishedList s x.toNat then .refused .exclusiveProducerBroken
  else .next { s with mem := Memory.write s.mem x.toNat v }

/-- A setting of the reference environment; without one, nothing (R101, R226, R227). -/
def setReference (f : RefEnv → RefEnv) (s : State) : State :=
  { s with env := { s.env with reference := s.env.reference.map f } }

end Sys2Proof.Machine
end

