-- ==== Sys2Proof/Machine/Step.lean ====
section
/-! DEFINITION. One step of the machine: the next move of the environment or of an agent (00_scope.md R8, R9), and the
storing of a command word where the next step takes it up. -/

namespace Sys2Proof.Machine

/-- The next move: a listed one, or a free one (R9 (d), (e); log 2). -/
def takeMove (s : State) : Move × State :=
  match s.env.moves with
  | m :: rest => (m, { s with env := { s.env with moves := rest } })
  | [] => (Config.freeMove s.env.ticks, { s with env := { s.env with ticks := s.env.ticks + 1 } })

/-- `SEQ` runs the accepted word to its completion or hold: the command it decodes to, or `ILLEGAL_CMD`; nothing when no
command is accepted (R92, R95, R98). A command whose precondition the state shows broken is refused (R295). -/
def runAccepted (s : State) : Out :=
  if s.busy then
    match decode s.cmd with
    | .ok i => if breaksPrecondition i s then .refused .ringStillServiced else exec i s
    | .error _ => .next (completeIllegal s)
  else .next s

/-- What a move does. DESIGN CHOICE (log 30): the answers of an `.alloc` or `.engine` line take the place of whatever an
earlier line of the same kind has left; R101 and R227 do not say whether they replace it or follow it. -/
def applyMove (m : Move) (s : State) : Out :=
  match m with
  | .reset strap => .next (systemReset strap s)
  | .hostWrite width address value => .next (hostWriteAt width address value s)
  | .hostRead width address => .next (hostReadAt width address s)
  | .irq source => .next (deliver source s)
  | .timerFire => .next (timerFire s)
  | .command => runAccepted s
  | .seq => seqAgentStep s
  | .svc ctx => .next (svcStep ctx s)
  | .poll => .next (pollStep s)
  | .extWrite addr value => extWrite addr value s
  | .refAlloc answers => .next (setReference (fun r => { r with alloc := answers }) s)
  | .refEngine answers => .next (setReference (fun r => { r with engine := answers }) s)
  | .refPending ring count =>
    .next (setReference (fun r => { r with pend := r.pend.setIfInBounds ring count }) s)

/-- One step. An invalid configuration is refused (R15). -/
def step (s : State) : Host.Outcome State Fault Refusal :=
  if configValid s.cfg then applyMove (takeMove s).1 (takeMove s).2 else .refused .invalidConfiguration

/-- `s` with the word of an opcode-table row accepted in `CMD`, to be run by the very next step. -/
def State.withFetchWord (s : State) (nbits w : Nat) : State := placeWord (tableWord nbits w) s

end Sys2Proof.Machine
end

