-- ==== Sys2Proof/Machine/Script.lean ====
section
/-! DEFINITION. The script syntax (30_encoding.md R99 to R101): a line, the moves it stands for, and the reading of a line
from its characters. No step of the machine uses this file: a script becomes the list of moves the state holds. -/

namespace Sys2Proof.Machine

/-- A line of a script: a command with its scalar operand, a host register write, or an environment line (R99, R101). -/
inductive ScriptLine where
  | command (i : Instr) (scalar : Option Nat)
  | write (offset value : Nat)
  | irq (cls inst : Nat)
  | timer
  | alloc (answers : List Bool)
  | engine (answers : List Bool)
  | pending (queues : List (Nat × Nat))
  | run
deriving DecidableEq, Repr, Inhabited

/-- The moves of `.run`: every agent steps until none can (R101). An invocation has at most 21 steps, a pass at most 16
invocations; a turn of an agent that cannot step changes nothing. -/
def runMoves : List Move :=
  [.command] ++ (List.range 16).flatMap (fun c => List.replicate 24 (.svc c)) ++ List.replicate 400 .poll ++ [.command]

/-- The moves a line stands for (R100, R101), with the register window at `base`: for a command, the write of `ARG0`, the write of `CMD`, the sequencer's run
and the host's read of `STATUS`. -/
def ScriptLine.moves (base : Nat) : ScriptLine → List Move
  | .command i scalar =>
    (match scalar with
      | some n => [.hostWrite 4 (base + 0x008) (BitVec.ofNat 32 n)]
      | none => []) ++ [.hostWrite 4 (base + 0x004) (encode i), .command, .hostRead 4 (base + 0x00C)]
  | .write offset value => [.hostWrite 4 (base + offset) (BitVec.ofNat 32 value)]
  | .irq cls inst => [.irq (8 * cls + inst)]
  | .timer => [.timerFire]
  | .alloc answers => [.refAlloc answers]
  | .engine answers => [.refEngine answers]
  | .pending queues => queues.map fun q => .refPending q.1 q.2
  | .run => runMoves

/-! ## Reading a line -/

/-- The line without its comment (R99). -/
def stripComment (l : List Char) : List Char := l.takeWhile (· ≠ ';')

/-- The words of a line, and the word under way in reverse. -/
def splitWords : List Char → List Char → List (List Char)
  | [], acc => if acc = [] then [] else [acc.reverse]
  | c :: rest, acc =>
    if c = ' ' then (if acc = [] then splitWords rest [] else acc.reverse :: splitWords rest [])
    else splitWords rest (c :: acc)

/-- The value of a digit in a base. -/
def digitValue (base : Nat) (c : Char) : Option Nat :=
  let n := c.toNat
  let v :=
    if 48 ≤ n ∧ n ≤ 57 then n - 48
    else if 97 ≤ n ∧ n ≤ 102 then n - 87
    else if 65 ≤ n ∧ n ≤ 70 then n - 55
    else base
  if v < base then some v else none

/-- Digits in a base, after the value read so far. -/
def digits (base : Nat) : List Char → Nat → Option Nat
  | [], acc => some acc
  | c :: rest, acc => (digitValue base c).bind fun v => digits base rest (base * acc + v)

/-- A decimal or `0x` hexadecimal number (R99). -/
def readNumber : List Char → Option Nat
  | '0' :: 'x' :: c :: rest => digits 16 (c :: rest) 0
  | c :: rest => digits 10 (c :: rest) 0
  | [] => none

/-- The class names with their codes (00_scope.md R12). -/
def classNames : List (List Char × Nat) :=
  [("TX_COMP".toList, 0), ("RX_DST".toList, 1), ("RX_EXC".toList, 2), ("RX_REL".toList, 3),
    ("REO_STATUS".toList, 4), ("WBM_IDLE_LINK".toList, 5), ("RX_BUF".toList, 6)]

/-- A class: its name, or its code. -/
def readClass (l : List Char) : Option Nat :=
  match classNames.find? (fun p => p.1 == l) with
  | some p => some p.2
  | none => readNumber l

/-- A ring: a class name followed by the number of its place in the class (95_test_vectors.md section 1). -/
def readRing (l : List Char) : Option Nat :=
  match classNames.find? (fun p => p.1.isPrefixOf l) with
  | some p => (readNumber (l.drop p.1.length)).map fun n => 8 * p.2 + n
  | none => none

/-- A `name=value` operand. -/
def readOperand (w : List Char) : List Char × List Char :=
  (w.takeWhile (· ≠ '='), (w.dropWhile (· ≠ '=')).drop 1)

/-- The value of an operand of a command line. -/
def operand (name : String) (read : List Char → Option Nat) (ops : List (List Char × List Char)) : Option Nat :=
  (ops.find? (fun p => p.1 == name.toList)).bind fun p => read p.2

/-- The answers of an `.alloc` line: `ok` or `null` (R227). -/
def readAllocAnswer (w : List Char) : Option Bool :=
  if w = "ok".toList then some true else if w = "null".toList then some false else none

/-- The answers of an `.engine` line: `accept` or `reject` (R227). -/
def readEngineAnswer (w : List Char) : Option Bool :=
  if w = "accept".toList then some true else if w = "reject".toList then some false else none

/-- One pair `ring=n` of a `.pending` line. -/
def readPending (w : List Char) : Option (Nat × Nat) :=
  let p := readOperand w
  (readRing p.1).bind fun id => (readNumber p.2).map fun n => (id, n)

/-- Reads a mnemonic's operands (R99). -/
def readCommand (m : List Char) (ops : List (List Char × List Char)) : Option ScriptLine :=
  let cls := operand "cls" readClass ops
  let inst := operand "inst" readNumber ops
  if m = "NOP".toList then some (.command .nop none)
  else if m = "RING_SETUP".toList then
    cls.bind fun k => inst.bind fun i => (operand "owner" readNumber ops).bind fun o =>
      (operand "entries" readNumber ops).map fun n => .command (.ringSetup k i o) (some n)
  else if m = "RING_CLEANUP".toList then
    cls.bind fun k => inst.map fun i => .command (.ringCleanup k i) none
  else if m = "LINK_POOL_SETUP".toList then
    (operand "max_clients" readNumber ops).map fun n => .command .linkPoolSetup (some n)
  else if m = "LINK_POOL_CLEANUP".toList then some (.command .linkPoolCleanup none)
  else if m = "DISP_ATTACH".toList then some (.command .dispAttach none)
  else if m = "DISP_DETACH".toList then some (.command .dispDetach none)
  else if m = "SERVICE".toList then
    (operand "ctx" readNumber ops).bind fun c =>
      (operand "budget" readNumber ops).map fun n => .command (.service c) (some n)
  else if m = ".irq".toList then cls.bind fun k => inst.map fun i => .irq k i
  else none

/-- Reads one line of a script; a line with nothing but a comment, or of no known form, is none (R99, R101). -/
def readLine (l : List Char) : Option ScriptLine :=
  match splitWords (stripComment l) [] with
  | [] => none
  | m :: args =>
    if m = ".timer".toList then some .timer
    else if m = ".run".toList then some .run
    else if m = ".alloc".toList then (args.mapM readAllocAnswer).map .alloc
    else if m = ".engine".toList then (args.mapM readEngineAnswer).map .engine
    else if m = ".pending".toList then (args.mapM readPending).map .pending
    else readCommand m (args.map readOperand)

end Sys2Proof.Machine
end

