-- ==== Sys2Proof/Safety.lean ====
section
/-! DEFINITION. What counts as a consistent machine, in the terms the statements use: the invariants of 10_state.md R34, R40,
R43, R48, R49 (c), of 60_exceptions.md R253 and of 44_port_operations.md R210, with what they say while a command is under
way. -/

namespace Sys2Proof.Machine

/-! ## A command just accepted -/

/-- A command is accepted with the scalar operand `n`, and nothing of it is executed (R92 (a)). -/
def Accepted (s : State) (n : Nat) : Prop :=
  s.seq.pos = .start ∧ s.seq.cursor = 0 ∧ s.seq.failure = .ok ∧ scalar s = n

/-- The sequencer and the accepted word agree: idle it holds nothing (R30), after acceptance it holds what R92 (a) says, and
past its start the word in `CMD` decodes to the command under way, because a word written while busy is dropped (R92 (d)). -/
def SeqOk (s : State) : Prop :=
  match s.seq.pos with
  | .idle => s.seq = {}
  | .start => s.seq.op = ((decoded s.cmd).map opOf).getD .none ∧ s.seq.cursor = 0 ∧ s.seq.failure = .ok
  | _ => ∃ i, decode s.cmd = .ok i ∧ s.seq.op = opOf i

/-! ## Memory and allocations -/

/-- Memory has its canonical form. -/
def MemoryOk (s : State) : Prop := Memory.wf s.mem = true

/-- Live regions lie in the address space and do not meet (R210). -/
def LiveOk (s : State) : Prop :=
  (∀ a ∈ s.live, a.pa.toNat + a.size.toNat ≤ addressSpace) ∧
    s.live.Pairwise fun a b => apart a.pa.toNat a.size.toNat b = true

/-! ## Rings -/

/-- The record of a ring place: R34 where registered, all 0 where not. -/
def RingOk (c : Config) (k i : Nat) (r : RingRec) : Prop :=
  if r.registered then
    slotExists c k i = true ∧ r.entrySize = (classOf c k).entrySize ∧ r.hnd ≠ 0 ∧ 1 ≤ r.numEntries.toNat ∧
      r.rawPa.toNat ≤ r.basePa.toNat ∧
      r.basePa.toNat + r.numEntries.toNat * r.entrySize.toNat ≤ r.rawPa.toNat + r.rawSize.toNat ∧
      r.basePa.toNat % (classOf c k).align = 0 ∧
      r.rawPa.toNat + r.rawSize.toNat ≤ addressSpace ∧
      (r.rawVa.toNat + (r.basePa.toNat - r.rawPa.toNat) < 2 ^ 64 →
        r.baseVa.toNat = r.rawVa.toNat + (r.basePa.toNat - r.rawPa.toNat))
  else r = {}

/-- What `RingSetup` under way has checked (R111) and obtained (R112). -/
def RingSetupOk (s : State) : Prop :=
  match s.seq.pos with
  | .ringAlloc r => ringRequestOk s r = true
  | .ringRegister r a =>
    ringRequestOk s r = true ∧ a.size.toNat = ringSize s.cfg r.cls r.entries ∧
      a.pa.toNat + a.size.toNat ≤ addressSpace
  | _ => True

/-- Every ring place keeps R34, and a setup under way is going to. -/
def RingsOk (s : State) : Prop :=
  configValid s.cfg = true ∧ (∀ k < 16, ∀ i < 8, RingOk s.cfg k i (s.ring k i)) ∧ RingSetupOk s

/-! ## Dispatcher and contexts -/

/-- The mode decides which of the two mechanisms exists (R48, R228 (e), R257). -/
def ModeOk (s : State) : Prop :=
  match s.mode with
  | .event =>
    s.disp.timer = .none ∧ s.poll = .idle ∧
      (match s.seq.pos with
        | .timerInit | .timerStart | .timerStop | .timerFree => False
        | _ => True)
  | .poll =>
    s.disp.irqReg = [] ∧ (∀ c < 16, (s.ctx c).pend = false) ∧
      (match s.seq.pos with
        | .registerSource _ | .freeSource | .detachWait => False
        | _ => True)

/-- The record of context `c`: an idle context has no position, a running one never has more budget left than it was given
(R45, R195, R200), and exactly one agent runs it (R253, R267). -/
def CtxOk (s : State) (c : Nat) : Prop :=
  let x := s.ctx c
  x.rem.toNat ≤ x.budgetIn.toNat ∧
    (x.busy = false → x.phase = .idle ∧ x.ringIdx = 0 ∧ x.next = 0 ∧ x.runner = .svc) ∧
    (x.busy = true ∧ x.runner = .seq ↔ s.seq.pos = .serving c) ∧
    (x.busy = true ∧ x.runner = .poll ↔ s.poll = .serving c)

/-- No context is entered twice (R253). -/
def ContextsOk (s : State) : Prop :=
  configValid s.cfg = true ∧ (∀ c < 16, CtxOk s c) ∧
    (match s.seq.pos with
      | .serviceClaim c | .serving c => c < 16
      | _ => True) ∧
    (match s.poll with
      | .claim c | .serving c => c < 16
      | _ => True)

/-- A poll pass runs only with the timer fired, and a running timer or pass only while attached, outside the steps that
create and destroy the timer (R183, R257, R259). -/
def PassOk (s : State) : Prop :=
  (s.poll ≠ .idle → s.disp.timer = .stopped) ∧
    (s.disp.timer = .running ∨ s.poll ≠ .idle →
      s.disp.attached = true ∧
        (match s.seq.pos with
          | .timerInit | .timerStart | .timerFree => False
          | _ => True))

/-- The `(source_id, context)` pairs that `INT_MASK_TABLE` makes relevant, in the order of R173. -/
def tableSources (c : Config) : List (Nat × Nat) :=
  (List.range c.numCtx).flatMap fun x => (List.range 5).flatMap fun k =>
    ((List.range 8).filter fun i => (rowMask (maskRow c x) k).getLsbD i).map fun i => (8 * k + i, x)

/-- The `(source_id, context)` pairs registered, in order (R48). -/
def registeredSources (s : State) : List (Nat × Nat) := s.disp.irqReg.map fun r => (r.source.toNat, r.ctx.toNat)

/-- Every context has the masks of its row of `INT_MASK_TABLE`, and what is no context has none (R45, R172). -/
def TableMasks (s : State) : Prop :=
  ∀ c < 16, ∀ k < 5, ctxMask (s.ctx c) k = if c < s.cfg.numCtx then rowMask (maskRow s.cfg c) k else 0

/-- Every mask is empty (R47, R185). -/
def EmptyMasks (s : State) : Prop := ∀ c < 16, ∀ k < 5, ctxMask (s.ctx c) k = 0

/-- No invocation is requested (R184). -/
def NonePending (s : State) : Prop := ∀ c < 16, (s.ctx c).pend = false

/-- What is attached: the masks of the table with all its sources registered in event-driven mode; detached: no mask, no
source, no request; and each stage between the two (R47, R48, R170, R180). At most 19 sources are registered, under handles
that are not 0 and differ (R48, R213), and only contexts are requested. -/
def WiringOk (s : State) : Prop :=
  s.disp.irqReg.length ≤ 19 ∧ (irqHandles s).Nodup ∧ 0 ∉ irqHandles s ∧
    (∀ c, s.cfg.numCtx ≤ c → (s.ctx c).pend = false) ∧
    (match s.seq.pos with
      | .registerSource r =>
        s.disp.attached = false ∧ TableMasks s ∧ r < (tableSources s.cfg).length ∧
          registeredSources s = (tableSources s.cfg).take r
      | .timerInit | .timerStart => s.disp.attached = false ∧ TableMasks s
      | .freeSource =>
        s.disp.attached = true ∧ TableMasks s ∧ registeredSources s ≠ [] ∧ registeredSources s <+: tableSources s.cfg
      | .detachWait => s.disp.attached = true ∧ TableMasks s ∧ registeredSources s = [] ∧ NonePending s
      | _ =>
        if s.disp.attached then
          TableMasks s ∧
            registeredSources s = (match s.mode with
              | .event => tableSources s.cfg
              | .poll => [])
        else EmptyMasks s ∧ registeredSources s = [] ∧ NonePending s)

/-- The dispatcher, the contexts and the agents agree. -/
def DispatchOk (s : State) : Prop := SeqOk s ∧ ModeOk s ∧ ContextsOk s ∧ PassOk s ∧ WiringOk s

/-! ## The pool -/

/-- The command under way belongs to the pool. -/
def poolOp (s : State) : Bool :=
  match s.seq.op with
  | .linkPoolSetup => true
  | .linkPoolCleanup => true
  | _ => false

/-- The sequencer stands inside a command. -/
def underWay (s : State) : Bool :=
  match s.seq.pos with
  | .idle => false
  | .start => false
  | _ => true

/-- Bank `b` holds what the plan for `total` descriptors gives it, inside its own allocation (R39, R40 (a), (d), R136). -/
def BankOk (c : Config) (total b : Nat) (r : Bank) : Prop :=
  r.count.toNat = bankCount c total b ∧ r.size.toNat = bankSize c total b ∧ bankSize c total b ≤ c.maxAllocSize ∧
    r.basePa.toNat % c.linkDescAlign = 0 ∧ r.rawPa.toNat ≤ r.basePa.toNat ∧
    r.basePa.toNat + bankCount c total b * c.linkDescSize ≤ r.rawPa.toNat + r.size.toNat ∧
    r.rawPa.toNat + r.size.toNat ≤ addressSpace

/-- The bank and scatter tables hold as many records as `POOL` counts, and nothing beyond (R40 (e), R41, R44). -/
def TablesOk (s : State) : Prop :=
  s.pool.numBanks ≤ s.cfg.maxLinkDescBanks ∧ s.pool.numScatterBufs ≤ s.cfg.maxScatterBufs ∧
    (∀ b < 256, if b < s.pool.numBanks then BankOk s.cfg (poolTotal s) b (s.bank b) else s.bank b = {}) ∧
    (∀ n < 256, if n < s.pool.numScatterBufs then (s.scat n).pa.toNat + s.cfg.scatterBufSize ≤ addressSpace
      else s.scat n = {})

/-- No idle-list ring exists (R37, R43). -/
def NoIdleRing (s : State) : Prop := s.ring idleClass 0 = {} ∧ s.producer = {}

/-- The idle-list ring exists with a slot for every descriptor (R143). -/
def IdleRing (s : State) : Prop :=
  (s.ring idleClass 0).registered = true ∧ (s.ring idleClass 0).numEntries = s.pool.totalLinkDescs

/-- A valid pool: the plan is carried out, and exactly one representation of the idle list exists (R40, R43, R153). -/
def ValidPool (s : State) : Prop :=
  1 ≤ poolTotal s ∧ isPow2 (poolTotal s) = true ∧ s.pool.numBanks = banksNeeded s.cfg (poolTotal s) ∧
    s.pool.idlePath = idlePathFor s.cfg (poolTotal s) ∧
    (match s.pool.idlePath with
      | .inRing => IdleRing s ∧ s.pool.numScatterBufs = 0 ∧ s.pool.tailOffset = 0
      | .scatter =>
        NoIdleRing s ∧ s.pool.numScatterBufs = scatterBufsNeeded s.cfg (poolTotal s) ∧ 1 ≤ s.pool.numScatterBufs ∧
          s.pool.tailOffset.toNat = idleEntrySize * ((poolTotal s - 1) % entriesPerScatterBuf s.cfg))

/-- Entries written before bank `b` is reached (R144). -/
def entriesBefore (s : State) (b : Nat) : Nat := ((List.range b).map fun x => (s.bank x).count.toNat).sum

/-- The walk stands at descriptor `j` of bank `b`, the entry whose number the cursor shows (R144). -/
def WalkAt (s : State) (b j : Nat) : Prop :=
  b < s.pool.numBanks ∧ j < (s.bank b).count.toNat ∧ s.seq.cursor = entriesBefore s b + j

/-- Every bank of the plan is allocated and the in-ring path is taken (R130). -/
def FillingRing (s : State) : Prop :=
  s.pool.numBanks = banksNeeded s.cfg (poolTotal s) ∧ idlePathFor s.cfg (poolTotal s) = .inRing ∧
    s.pool.numScatterBufs = 0

/-- Every bank of the plan is allocated and the scatter path is taken (R130). -/
def FillingScatter (s : State) : Prop :=
  s.pool.numBanks = banksNeeded s.cfg (poolTotal s) ∧ idlePathFor s.cfg (poolTotal s) = .scatter ∧ NoIdleRing s

/-- `LINK_POOL_SETUP` under way, by position (R130, R141 to R152, R155). -/
def SetupAt (s : State) : Prop :=
  match s.seq.pos with
  | .bankAlloc b =>
    b = s.pool.numBanks ∧ b < banksNeeded s.cfg (poolTotal s) ∧ s.pool.numScatterBufs = 0 ∧ NoIdleRing s ∧
      s.seq.cursor = 0
  | .ringAlloc r => r = ⟨idleClass, 0, 0, poolTotal s⟩ ∧ FillingRing s ∧ NoIdleRing s ∧ s.seq.cursor = 0
  | .ringRegister r _ => r = ⟨idleClass, 0, 0, poolTotal s⟩ ∧ FillingRing s ∧ NoIdleRing s ∧ s.seq.cursor = 0
  | .ringReject _ => FillingRing s ∧ NoIdleRing s
  | .accessStart => FillingRing s ∧ IdleRing s ∧ s.producer = {} ∧ s.seq.cursor = 0
  | .getNext b j =>
    FillingRing s ∧ IdleRing s ∧ WalkAt s b j ∧ s.producer = ⟨s.seq.cursor, 0, 0, true⟩
  | .setLink slot b j =>
    FillingRing s ∧ IdleRing s ∧ WalkAt s b j ∧ s.producer = ⟨s.seq.cursor + 1, 0, 0, true⟩ ∧
      slot.toNat = (s.ring idleClass 0).basePa.toNat + idleEntrySize * s.seq.cursor
  | .accessEnd => FillingRing s ∧ IdleRing s ∧ s.producer = ⟨poolTotal s, 0, 0, true⟩
  | .publishRing => FillingRing s ∧ IdleRing s ∧ s.producer = ⟨poolTotal s, poolTotal s, 0, false⟩
  | .scatterAlloc n =>
    FillingScatter s ∧ n = s.pool.numScatterBufs ∧ n < scatterBufsNeeded s.cfg (poolTotal s) ∧ s.seq.cursor = 0
  | .scatterLink b j =>
    FillingScatter s ∧ s.pool.numScatterBufs = scatterBufsNeeded s.cfg (poolTotal s) ∧ WalkAt s b j
  | .publishScatter =>
    FillingScatter s ∧ s.pool.numScatterBufs = scatterBufsNeeded s.cfg (poolTotal s) ∧
      s.pool.tailOffset.toNat = idleEntrySize * ((poolTotal s - 1) % entriesPerScatterBuf s.cfg)
  | .ringUnregister k i => k = idleClass ∧ i = 0 ∧ (s.ring idleClass 0).registered = true
  | .ringFree k i => k = idleClass ∧ i = 0 ∧ (s.ring idleClass 0).registered = true
  | .unwindScatter => NoIdleRing s ∧ 0 < s.pool.numScatterBufs
  | .unwindBank => NoIdleRing s ∧ s.pool.numScatterBufs = 0 ∧ 0 < s.pool.numBanks
  | _ => False

/-- `LINK_POOL_CLEANUP` under way, by position (R155, R160). -/
def CleanupAt (s : State) : Prop :=
  match s.seq.pos with
  | .ringUnregister k i => k = idleClass ∧ i = 0 ∧ (s.ring idleClass 0).registered = true
  | .ringFree k i => k = idleClass ∧ i = 0 ∧ (s.ring idleClass 0).registered = true
  | .unwindScatter => NoIdleRing s ∧ 0 < s.pool.numScatterBufs
  | .unwindBank => NoIdleRing s ∧ s.pool.numScatterBufs = 0 ∧ 0 < s.pool.numBanks
  | _ => False

/-- Where a command that is not the pool's may stand: its ring, if it has one, is not the idle-list ring (R117 (d)). -/
def OtherAt (s : State) : Prop :=
  match s.seq.op, s.seq.pos with
  | .ringSetup, .ringAlloc r => r.cls ≠ idleClass
  | .ringSetup, .ringRegister r _ => r.cls ≠ idleClass
  | .ringSetup, .ringReject _ => True
  | .ringCleanup, .ringUnregister k i => k ≠ idleClass ∧ (s.ring k i).registered = true
  | .ringCleanup, .ringFree k i => k ≠ idleClass ∧ (s.ring k i).registered = true
  | .dispAttach, .registerSource _ => True
  | .dispAttach, .timerInit => True
  | .dispAttach, .timerStart => True
  | .dispDetach, .freeSource => True
  | .dispDetach, .detachWait => True
  | .dispDetach, .timerStop => True
  | .dispDetach, .timerFree => True
  | .service, .serviceClaim _ => True
  | .service, .serving _ => True
  | _, _ => False

/-- The pool at rest: valid, or nothing of it exists (R40, R43, R161). -/
def PoolAtRest (s : State) : Prop :=
  if s.pool.valid then ValidPool s else s.pool = {} ∧ NoIdleRing s

/-- The pool and the sequencer agree (R40, R43, R130, R155). -/
def PoolOk (s : State) : Prop :=
  TablesOk s ∧ (s.seq.pos = .start → s.seq.cursor = 0) ∧
    (if underWay s && poolOp s then
      match s.seq.op with
      | .linkPoolSetup => s.pool.valid = false ∧ planTotal s.cfg (scalar s) = some (poolTotal s) ∧ SetupAt s
      | _ => CleanupAt s
    else PoolAtRest s ∧ (underWay s = true → OtherAt s))

/-! ## Ownership -/

/-- The raw region of a ring, where registered. -/
def ringRegion (r : RingRec) : Option Alloc := if r.registered then some ⟨r.rawVa, r.rawPa, r.rawSize⟩ else none

/-- The ring places. -/
def ringPlaces : List (Nat × Nat) := (List.range 16).flatMap fun k => (List.range 8).map fun i => (k, i)

/-- The allocation a `RingSetup` under way holds and has not yet recorded. -/
def inFlight (s : State) : List Alloc :=
  match s.seq.pos with
  | .ringRegister _ a => [a]
  | .ringReject a => [a]
  | _ => []

/-- The raw regions the Manager's records name (R49 (c)). -/
def ownedRegions (s : State) : List Alloc :=
  ringPlaces.filterMap (fun p => ringRegion (s.ring p.1 p.2)) ++
    ((List.range s.pool.numBanks).map fun b => ⟨(s.bank b).rawVa, (s.bank b).rawPa, (s.bank b).size⟩) ++
    ((List.range s.pool.numScatterBufs).map fun n =>
      ⟨(s.scat n).va, (s.scat n).pa, BitVec.ofNat 32 s.cfg.scatterBufSize⟩) ++ inFlight s

/-- The handle of ring `p` is registered with the engine: its record says so and it is not between the two halves of its
cleanup (R49 (d), R120). -/
def heldHandle (s : State) (p : Nat × Nat) : Option Handle :=
  if (s.ring p.1 p.2).registered && !decide (s.seq.pos = .ringFree p.1 p.2) then some (s.ring p.1 p.2).hnd else none

/-- `LIVE` and `ENG_REG` are exactly what the Manager's records name (R49 (c), (d)). -/
def OwnershipOk (s : State) : Prop :=
  s.live.Perm (ownedRegions s) ∧ s.engReg.Perm (ringPlaces.filterMap (heldHandle s))

/-- The machine is consistent. -/
def Consistent (s : State) : Prop := SeqOk s ∧ LiveOk s ∧ RingsOk s ∧ PoolOk s ∧ OwnershipOk s

/-! ## Words of the statements -/

/-- The ring a handler record is about (R225). -/
def handlerSlot : PortOp → Option Slot
  | .handlerTxComp _ i _ _ => some (.tx i)
  | .handlerRxExc _ _ _ => some .rxExc
  | .handlerRxRel _ _ _ => some .rxRel
  | .handlerRxDst _ i _ _ => some (.rxDst i)
  | .handlerReoStatus _ => some .reo
  | _ => none

/-- The budget a handler record gives and the work it reports; nothing for the REO-status handler (R225). -/
def handlerBudget : PortOp → Option (Nat × Nat)
  | .handlerTxComp _ _ b w => some (b.toNat, w.toNat)
  | .handlerRxExc _ b w => some (b.toNat, w.toNat)
  | .handlerRxRel _ b w => some (b.toNat, w.toNat)
  | .handlerRxDst _ _ b w => some (b.toNat, w.toNat)
  | _ => none

/-- Starting from `remaining`, each budgeted call was given the whole remaining budget, at least 1, and its work was taken
off, never below 0; `left` remains (R192, R194, R195). -/
def Accounted (remaining : Nat) : List Event → Nat → Prop
  | [], left => left = remaining
  | e :: rest, left =>
    match handlerBudget e.op with
    | some (b, w) => b = remaining ∧ 1 ≤ b ∧ Accounted (remaining - w) rest left
    | none => Accounted remaining rest left

/-- The answer of a record is not a refusal by the host or the engine (R210, R217, R222, R223). -/
def agreed : PortOp → Bool
  | .allocCoherent _ answer => answer.isSome
  | .ringRegister _ _ _ _ answer => answer.isSome
  | .publishRing _ ok => ok
  | .publishScatter _ ok => ok
  | _ => true

/-- The rings that a context's masks name and whose phases test the budget, in the order of R191: Tx completion by index, Rx
exception, Rx release, Rx destination by index. -/
def budgetedRings (c : Config) (x : Ctx) : List Slot :=
  ((List.range c.numTxRings).filter fun i => x.txMask.getLsbD i).map .tx ++
    (if x.rxExcMask.getLsbD 0 then [.rxExc] else []) ++ (if x.rxRelMask.getLsbD 0 then [.rxRel] else []) ++
    ((List.range c.numRxRings).filter fun i => x.rxDstMask.getLsbD i).map .rxDst

/-- `es` are the handler calls of one whole invocation of context `ctx` by agent `a`, given a budget, over the budgeted rings
`order` and, where `reo`, the REO-status ring: each ring called once, in order; rings passed over only with the budget used
up; the REO-status ring last and in any case; the budgets as `Accounted` says (R191 to R195, R198). -/
def Serves (a : Agent) (ctx : Nat) (order : List Slot) (reo : Bool) (budget : Nat) (es : List Event) (left : Nat) : Prop :=
  (∃ done, done <+: order ∧ (done ≠ order → left = 0) ∧
      es.map (fun e => handlerSlot e.op) = (done ++ if reo then [Slot.reo] else []).map some) ∧
    (∀ e ∈ es, e.agent = a ∧ ∃ p b w, e.op = handlerOp ctx b w p) ∧ Accounted budget es left ∧ left ≤ budget

/-- Some handler of `es` reported more work than the budget it was given (R195). -/
def overrun (es : List Event) : Bool :=
  es.any fun e =>
    match handlerBudget e.op with
    | some (b, w) => decide (b < w)
    | none => false

/-- The record of a context after an invocation that was given `budget` and left `left` of it (R191, R254). `next` and
`runner` are the model's own (log 17). -/
def servedCtx (x : Ctx) (budget left : Nat) : Ctx :=
  { x with
    busy := false, phase := .idle, ringIdx := 0, budgetIn := BitVec.ofNat 32 budget, rem := BitVec.ofNat 32 left,
    lastWork := BitVec.ofNat 32 (budget - left), next := 0, runner := .svc }

/-- The code of a record's refusal by the host or the engine (R242, R244). -/
def refusalCode : PortOp → Err
  | .allocCoherent _ _ => .allocFail
  | _ => .regFail

/-- The code a failed `LINK_POOL_SETUP` ends with: that of the first refusal in its history (R154); with no refusal, the
idle-list ring's own `CONFIG_ERR` (log 13). -/
def failureCode (es : List Event) : Err :=
  match es.find? fun e => !agreed e.op with
  | some e => refusalCode e.op
  | none => .configErr

/-- The sizes asked for, in order (R229). -/
def requested (es : List Event) : List Nat :=
  es.filterMap fun e =>
    match e.op with
    | .allocCoherent size _ => some size
    | _ => none

/-- The regions obtained, in order (R229). -/
def obtained (es : List Event) : List Alloc :=
  es.filterMap fun e =>
    match e.op with
    | .allocCoherent size (some (va, pa)) => some ⟨va, pa, BitVec.ofNat 32 size⟩
    | _ => none

/-- The regions given back, in order (R229). -/
def released (es : List Event) : List Alloc :=
  es.filterMap fun e =>
    match e.op with
    | .freeCoherent a => some a
    | _ => none

/-- The entries written, in order: slot, bank, descriptor (R224, R229). -/
def linked (es : List Event) : List (PAddr × Nat × PAddr) :=
  es.filterMap fun e =>
    match e.op with
    | .setLinkAddr slot bank desc => some (slot, bank, desc)
    | _ => none

/-- The pairs of bank and descriptor address in the order of the walk (R144). -/
def descWalk (s : State) : List (Nat × PAddr) :=
  (List.range s.pool.numBanks).flatMap fun b =>
    (List.range (s.bank b).count.toNat).map fun j => (b, descAddress s b j)

/-- The address of the idle list's entry number `n` (R76). -/
def entrySlot (s : State) (n : Nat) : PAddr :=
  match s.pool.idlePath with
  | .inRing => BitVec.ofNat 40 ((s.ring idleClass 0).basePa.toNat + idleEntrySize * n)
  | .scatter => scatterSlot s n

/-- The address range of a region does not hold `x`. -/
def outside (x : Nat) (a : Alloc) : Prop := x < a.pa.toNat ∨ a.pa.toNat + a.size.toNat ≤ x

/-- The reference allocator has room for the whole pool above its cursor (R227). -/
def poolRoom (c : Config) (total : Nat) : Nat :=
  banksNeeded c total * (c.maxAllocSize + 12) +
    (match idlePathFor c total with
      | .inRing => ringSize c idleClass total + 12
      | .scatter => scatterBufsNeeded c total * (c.scatterBufSize + 12))

/-- `s` once its next move is taken from the list (R9). -/
def moved (rest : List Move) (s : State) : State := { s with env := { s.env with moves := rest } }

/-- The command about to begin is `RING_CLEANUP` of a registered ring that an attached context's mask names: the breach of
R288 that the state shows (log 24). -/
def CleanupWhileServiced (i : Instr) (s : State) : Prop :=
  ∃ k n, i = .ringCleanup k n ∧ s.seq.pos = .start ∧ s.disp.attached = true ∧ (s.ring k n).registered = true ∧
    ∃ c < s.cfg.numCtx, (ctxMask (s.ctx c) k).getLsbD n = true

/-- `n` steps of the sequencer, stopping at the first fault or refusal. -/
def seqSteps : Nat → State → Out
  | 0, s => .next s
  | n + 1, s => andThen (seqAgentStep s) (seqSteps n)

end Sys2Proof.Machine
end

