-- ==== Sys2Proof/Certificates/Slice0/Obligations.lean ====
section
/-! DEFINITION. The statements for the provers. Each docstring names the rules it rests on; where a clause is the model's own
choice, it names the log entry. -/

open Sys2Proof Sys2Proof.Machine

/-! ## Encoding -/

/-- R91, R93, R96: the word of a well-formed command decodes to that command, as a number and as bytes in the little-endian
order of R69, whatever bytes follow. -/
def Obligations.DecodingInvertsEncoding : Prop :=
  ∀ (i : Instr) (rest : List Byte), WellFormed i = true →
    decode (encode i) = .ok i ∧ decodeBytes (wordBytes (encode i) ++ rest) = .ok (i, rest)

/-- R95, R97: whatever decodes is well-formed, and its word is the one word of the command: no reserved bit is set and no
bit is dropped. -/
def Obligations.EncodingInvertsDecoding : Prop :=
  ∀ (w : Word) (i : Instr), decode w = .ok i → WellFormed i = true ∧ encode i = w

/-- R95, R96: a word is a command exactly when it agrees with that command's match under its mask, and it is illegal exactly
when it agrees with none of the eight. -/
def Obligations.WordsDecodeByMatchAndMask : Prop :=
  (∀ w : Word,
    (decode w = .ok .nop ↔ w &&& 0xFFFFFFFF = 0x00000000) ∧
    (decode w = .ok (.ringSetup (w.extractLsb' 20 4).toNat (w.extractLsb' 16 4).toNat (w.extractLsb' 12 4).toNat) ↔
      w &&& 0xFF000FFF = 0x10000000) ∧
    (decode w = .ok (.ringCleanup (w.extractLsb' 20 4).toNat (w.extractLsb' 16 4).toNat) ↔
      w &&& 0xFF00FFFF = 0x11000000) ∧
    (decode w = .ok .linkPoolSetup ↔ w &&& 0xFFFFFFFF = 0x20000000) ∧
    (decode w = .ok .linkPoolCleanup ↔ w &&& 0xFFFFFFFF = 0x21000000) ∧
    (decode w = .ok .dispAttach ↔ w &&& 0xFFFFFFFF = 0x30000000) ∧
    (decode w = .ok .dispDetach ↔ w &&& 0xFFFFFFFF = 0x31000000) ∧
    (decode w = .ok (.service (w.extractLsb' 20 4).toNat) ↔ w &&& 0xFF0FFFFF = 0x40000000) ∧
    ((∃ e, decode w = .error e) ↔
      ∀ row ∈ ([(0x00000000, 0xFFFFFFFF), (0x10000000, 0xFF000FFF), (0x11000000, 0xFF00FFFF),
          (0x20000000, 0xFFFFFFFF), (0x21000000, 0xFFFFFFFF), (0x30000000, 0xFFFFFFFF), (0x31000000, 0xFFFFFFFF),
          (0x40000000, 0xFF0FFFFF)] : List (Word × Word)), w &&& row.2 ≠ row.1)) ∧
  ([(0x00000000, 0xFFFFFFFF), (0x10000000, 0xFF000FFF), (0x11000000, 0xFF00FFFF), (0x20000000, 0xFFFFFFFF),
      (0x21000000, 0xFFFFFFFF), (0x30000000, 0xFFFFFFFF), (0x31000000, 0xFFFFFFFF),
      (0x40000000, 0xFF0FFFFF)] : List (Word × Word)).Pairwise
    fun a b => ∀ w : Word, ¬(w &&& a.2 = a.1 ∧ w &&& b.2 = b.1)

/-- R96, R98, R117, R122: words written out from the spec's tables decode to the commands they stand for, and illegal words
to none. -/
def Obligations.TableWordsDecode : Prop :=
  decode 0x00000000 = .ok .nop ∧ decode 0x10601000 = .ok (.ringSetup 6 0 1) ∧ decode 0x11600000 = .ok (.ringCleanup 6 0) ∧
    decode 0x20000000 = .ok .linkPoolSetup ∧ decode 0x21000000 = .ok .linkPoolCleanup ∧
    decode 0x30000000 = .ok .dispAttach ∧ decode 0x31000000 = .ok .dispDetach ∧
    decode 0x40200000 = .ok (.service 2) ∧ decode 0x00000001 = .error (.reservedBits 0) ∧
    decode 0x10601001 = .error (.reservedBits 16) ∧ decode 0x12000000 = .error (.reservedOpcode 18)

/-! ## Issue -/

/-- R92 (b), R295: when `SEQ` has its turn with a command accepted, the step is that command's meaning on the state without
the move, but for a `RING_CLEANUP` that breaks R288 in a way the state shows: that trace is refused (log 24). An accepted word
that is no command completes with `ILLEGAL_CMD` in that step. The turn as one move of the list is the model's own
(logs 2, 4). -/
def Obligations.StepRunsTheDecodedCommand : Prop :=
  ∀ (s : State) (rest : List Move), configValid s.cfg = true → s.env.moves = .command :: rest → s.seq.pos ≠ .idle →
    (∀ i, decode s.cmd = .ok i → ¬CleanupWhileServiced i s → step s = exec i (moved rest s)) ∧
      (∀ i, decode s.cmd = .ok i → CleanupWhileServiced i s → step s = .refused .ringStillServiced) ∧
      (∀ e, decode s.cmd = .error e → step s =
        .next { moved rest s with err := .illegalCmd, res0 := 0, res1 := 0, seq := {} })

/-- R245: a word that is no command, written while idle, is stored, and its turn ends it with `ILLEGAL_CMD` and zero
results; no other state changes. -/
def Obligations.IllegalWordChangesNothingElse : Prop :=
  ∀ (s : State) (w : Word) (e : DecodeError) (rest : List Move), configValid s.cfg = true → s.seq = {} →
    decode w = .error e → s.env.moves = .hostWrite 4 (s.cfg.mgrBase + 0x004) w :: .command :: rest →
    ∃ u, step s = .next u ∧ u.busy = true ∧
      step u = .next { moved rest s with cmd := w, err := .illegalCmd, res0 := 0, res1 := 0 }

/-- R92 (a), R84: a word written to `CMD` while idle is stored, `ARG0` is sampled, and the sequencer is busy with the
command the word stands for. -/
def Obligations.CommandWriteIsAcceptedWhenIdle : Prop :=
  ∀ (s : State) (w : Word) (rest : List Move), configValid s.cfg = true →
    s.env.moves = .hostWrite 4 (s.cfg.mgrBase + 0x004) w :: rest →
    s.seq.pos = .idle →
    ∃ t, step s = .next t ∧ t.busy = true ∧ t.seq.arg = s.arg0 ∧ t.seq.pos = .start ∧ t.seq.cursor = 0 ∧
      t.seq.failure = .ok ∧ (∀ i, decode w = .ok i → t.seq.op = opOf i) ∧
      t = { moved rest s with cmd := w, seq := t.seq }

/-- R286, R92 (d): a word written to `CMD` while a command runs is dropped and sets `FAULT.CMD_OVERRUN`; the running command
is not disturbed. -/
def Obligations.CommandWriteIsDroppedWhenBusy : Prop :=
  ∀ (s : State) (w : Word) (rest : List Move), configValid s.cfg = true →
    s.env.moves = .hostWrite 4 (s.cfg.mgrBase + 0x004) w :: rest →
    s.seq.pos ≠ .idle → step s = .next { moved rest s with cmdOverrun := true }

/-- R15: a step is refused for the configuration exactly when one of (a) to (f) fails, or one of the conditions that R12 and
R14 state of the named classes and the counts; that these last belong to validity is the model's inference (log 9). -/
def Obligations.InvalidConfigurationIsRefused : Prop :=
  ∀ s : State, step s = .refused .invalidConfiguration ↔
    ¬(-- (a)
      (∀ k < 16, (∃ e, (classOf s.cfg k).align = 2 ^ e) ∧ 8 ≤ (classOf s.cfg k).align) ∧
      (∃ e, s.cfg.linkDescAlign = 2 ^ e) ∧
      -- (b)
      (∀ k < 16, (classOf s.cfg k).valid = true → 1 ≤ (classOf s.cfg k).entrySize.toNat) ∧
      (classOf s.cfg 5).entrySize = 8 ∧
      -- (c)
      1 ≤ s.cfg.linkDescSize ∧ s.cfg.maxAllocSize ≤ 2 ^ 32 - 1 ∧
      s.cfg.linkDescSize + (s.cfg.linkDescAlign - 1) ≤ s.cfg.maxAllocSize ∧
      8 ≤ s.cfg.scatterBufSize ∧ s.cfg.scatterBufSize ≤ s.cfg.maxAllocSize ∧
      -- (d)
      1 ≤ s.cfg.maxLinkDescBanks ∧ s.cfg.maxLinkDescBanks ≤ 256 ∧ 1 ≤ s.cfg.maxScatterBufs ∧ s.cfg.maxScatterBufs ≤ 256 ∧
      -- (e)
      1 ≤ s.cfg.avgTidsPerClient ∧ 1 ≤ s.cfg.avgMpdusPerTid ∧ 1 ≤ s.cfg.avgFlowsPerTid ∧ 1 ≤ s.cfg.avgMsdusPerFlow ∧
      1 ≤ s.cfg.avgMsdusPerMpdu ∧ 1 ≤ s.cfg.mpduLinksPerQueueDesc ∧ 1 ≤ s.cfg.mpdusPerLinkDesc ∧
      1 ≤ s.cfg.msdusPerLinkDesc ∧
      -- (f)
      (∀ x < s.cfg.numCtx, ∀ i < 8,
        ((maskRow s.cfg x).tx.getLsbD i = true → i < s.cfg.numTxRings) ∧
        ((maskRow s.cfg x).rxDst.getLsbD i = true → i < s.cfg.numRxRings) ∧
        ((maskRow s.cfg x).rxExc.getLsbD i = true → i = 0) ∧ ((maskRow s.cfg x).rxRel.getLsbD i = true → i = 0) ∧
        ((maskRow s.cfg x).reo.getLsbD i = true → i = 0)) ∧
      (∀ x < s.cfg.numCtx, ∀ y < s.cfg.numCtx, x ≠ y → ∀ k < 5,
        rowMask (maskRow s.cfg x) k &&& rowMask (maskRow s.cfg y) k = 0) ∧
      -- R12, R14
      (∀ k < 16, (classOf s.cfg k).valid = true → 1 ≤ (classOf s.cfg k).maxInst ∧ (classOf s.cfg k).maxInst ≤ 8) ∧
      (∀ k < 7, (classOf s.cfg k).valid = true ∧ ((classOf s.cfg k).bufferSupply = true ↔ k = 6)) ∧
      (classOf s.cfg 0).maxInst = s.cfg.numTxRings ∧ (classOf s.cfg 1).maxInst = s.cfg.numRxRings ∧
      (∀ k, 2 ≤ k → k ≤ 5 → (classOf s.cfg k).maxInst = 1) ∧ (classOf s.cfg 6).maxInst = s.cfg.numRxBufRings ∧
      1 ≤ s.cfg.numCtx ∧ s.cfg.numCtx ≤ 16)

/-! ## Arithmetic and the plan -/

/-- R18: for a power of two, `align_up` is the masked sum the rule writes, the first multiple that is at least `x`, and
the slack it consumes is below the alignment. -/
def Obligations.AlignUpIsTheLeastMultiple : Prop :=
  ∀ x k n : Nat, x + 2 ^ k ≤ 2 ^ n →
    alignUp x (2 ^ k) = (BitVec.ofNat n (x + 2 ^ k - 1) &&& ~~~(BitVec.ofNat n (2 ^ k - 1))).toNat ∧
      alignUp x (2 ^ k) % 2 ^ k = 0 ∧ x ≤ alignUp x (2 ^ k) ∧ alignUp x (2 ^ k) - x ≤ 2 ^ k - 1 ∧
      (∀ y, x ≤ y → y % 2 ^ k = 0 → alignUp x (2 ^ k) ≤ y)

/-- R19: `pow2_ceil(n)` is the smallest power of two that is at least `n`, with `pow2_ceil(0) = 1`, and a power of two is
not doubled. -/
def Obligations.PowerOfTwoCeilingIsTheLeast : Prop :=
  (∀ n : Nat, (∃ k, pow2Ceil n = 2 ^ k) ∧ n ≤ pow2Ceil n ∧ ∀ k, n ≤ 2 ^ k → pow2Ceil n ≤ 2 ^ k) ∧
    pow2Ceil 0 = 1 ∧ pow2Ceil 1 = 1 ∧ pow2Ceil 2 = 2 ∧ pow2Ceil 3 = 4 ∧ ∀ k, pow2Ceil (2 ^ k) = 2 ^ k

/-- R134, P1: what phase `PLAN` accepts is the smallest power of two that is at least the raw count, at most `2^31`. -/
def Obligations.PlannedTotalIsTheLeastPowerOfTwo : Prop :=
  ∀ (c : Config) (m total : Nat), planTotal c m = some total →
    0 < m ∧ rawCount c m ≤ total ∧ total ≤ 2 ^ 31 ∧ (∃ k, total = 2 ^ k) ∧ (∀ k, rawCount c m ≤ 2 ^ k → total ≤ 2 ^ k) ∧
      banksNeeded c total ≤ c.maxLinkDescBanks

/-- R136, P2: the planned counts add up to the total, every bank fits its descriptors whatever its alignment, and every bank
but the last has the maximal size. -/
def Obligations.BankPlanCoversThePool : Prop :=
  ∀ (c : Config) (total : Nat), configValid c = true → 1 ≤ total →
    1 ≤ banksNeeded c total ∧
      ((List.range (banksNeeded c total)).map (bankCount c total)).sum = total ∧
      (∀ b < banksNeeded c total, 1 ≤ bankCount c total b ∧
        bankCount c total b * c.linkDescSize + (c.linkDescAlign - 1) ≤ bankSize c total b ∧
        bankSize c total b ≤ c.maxAllocSize) ∧
      (∀ b, b + 1 < banksNeeded c total → bankSize c total b = c.maxAllocSize)

/-- R139, R150, R151: on the scatter path every planned entry lies inside its buffer, and the last one in the last buffer. -/
def Obligations.ScatterPlanHoldsEveryEntry : Prop :=
  ∀ (c : Config) (m total : Nat), configValid c = true → planTotal c m = some total →
    idlePathFor c total = .scatter →
    1 ≤ scatterBufsNeeded c total ∧ scatterBufsNeeded c total ≤ c.maxScatterBufs ∧
      (∀ n < total, n / entriesPerScatterBuf c < scatterBufsNeeded c total ∧
        idleEntrySize * (n % entriesPerScatterBuf c) + idleEntrySize ≤ c.scatterBufSize) ∧
      (total - 1) / entriesPerScatterBuf c = scatterBufsNeeded c total - 1

/-- R77, R224, R69: `EngSetLinkAddr` leaves the descriptor address in bits 39:0, the bank in bits 47:40 and 0 above, least
significant byte first, and touches no other byte. Its stop on memory that is not live is the model's own (log 15). -/
def Obligations.EntryImageIsLittleEndian : Prop :=
  ∀ (s : State) (slot desc : PAddr) (bank : Nat), bank < 256 → slot.toNat + 8 ≤ 2 ^ 40 →
    (∀ j < 8, isLive s (slot.toNat + j) = true) →
    ∃ t, engSetLinkAddr slot bank desc s = .next t ∧
      (∀ j < 5, Memory.read t.mem (slot.toNat + j) = some (desc.extractLsb' (8 * j) 8)) ∧
      Memory.read t.mem (slot.toNat + 5) = some (BitVec.ofNat 8 bank) ∧
      Memory.read t.mem (slot.toNat + 6) = some 0 ∧ Memory.read t.mem (slot.toNat + 7) = some 0 ∧
      (∀ x, x < slot.toNat ∨ slot.toNat + 8 ≤ x → Memory.read t.mem x = Memory.read s.mem x) ∧
      t = { s with hist := s.hist ++ [⟨.seq, .setLinkAddr slot bank desc⟩], mem := t.mem }

/-! ## NOP and the ring commands -/

/-- R125: `NOP` is the word 0; it completes `OK` with zero results and changes nothing else. -/
def Obligations.NopCompletes : Prop :=
  encode .nop = 0x00000000 ∧
    ∀ s : State, s.seq.pos = .start →
      exec .nop s = .next { s with err := .ok, res0 := 0, res1 := 0, seq := {} }

/-- R110, R113, R114, R117: with a free slot, an accepting allocator and an accepting engine, `RING_SETUP` completes `OK`
with the ring's record, `LIVE`, `ENG_REG`, the history and the results as the rules give them, and nothing else changes but
the new region's bytes, which have no value (log 14). `base_va` is what R68 states, free where it does not fit 64 bits
(log 7). -/
def Obligations.RingSetupRecordsTheRing : Prop :=
  ∀ (s : State) (n k i o : Nat) (a : Alloc) (h : Handle), configValid s.cfg = true → Accepted s n → k ≠ idleClass →
    slotExists s.cfg k i = true → (s.ring k i).registered = false → n ≠ 0 →
    n * (classOf s.cfg k).entrySize.toNat + (classOf s.cfg k).align - 1 ≤ 2 ^ 32 - 1 →
    (hostAllocCoherent (ringSize s.cfg k n) s).1 = some a →
    (engRingRegister ⟨k, i, o, n⟩ (ringParams (ringRecord s.cfg ⟨k, i, o, n⟩ a 0))
      (hostAllocCoherent (ringSize s.cfg k n) s).2).1 = some h →
    ∃ t, exec (.ringSetup k i o) s = .next t ∧
      t.ring k i =
        { registered := true
          owner := BitVec.ofNat 4 o
          rawVa := a.va
          rawPa := a.pa
          rawSize := BitVec.ofNat 32 (n * (classOf s.cfg k).entrySize.toNat + (classOf s.cfg k).align - 1)
          baseVa := alignedVa a.va a.pa (classOf s.cfg k).align
          basePa := BitVec.ofNat 40 (alignUp a.pa.toNat (classOf s.cfg k).align)
          numEntries := BitVec.ofNat 32 n
          entrySize := (classOf s.cfg k).entrySize
          intrTimerThres := s.cfg.intrTimerThres
          intrBatchThres := 1
          lowThres := if (classOf s.cfg k).bufferSupply then BitVec.ofNat 32 (n / 8) else 0
          lowThresIntrEn := (classOf s.cfg k).bufferSupply
          hnd := h } ∧
      (t.ring k i).basePa.toNat = alignUp a.pa.toNat (classOf s.cfg k).align ∧ h ≠ 0 ∧ h ∉ s.engReg ∧
      (∀ b ∈ s.live, a.pa.toNat + a.size.toNat ≤ b.pa.toNat ∨ b.pa.toNat + b.size.toNat ≤ a.pa.toNat) ∧
      (∀ k' < 16, ∀ i' < 8, ¬(k' = k ∧ i' = i) → t.ring k' i' = s.ring k' i') ∧
      (∀ x, outside x a → Memory.read t.mem x = Memory.read s.mem x) ∧
      t = { s with
        err := .ok, res0 := BitVec.ofNat 32 (8 * k + i), res1 := (t.ring k i).basePa.extractLsb' 0 32, seq := {},
        rings := t.rings, live := s.live ++ [a], engReg := s.engReg ++ [h],
        hist := s.hist ++
          [⟨.seq, .allocCoherent (n * (classOf s.cfg k).entrySize.toNat + (classOf s.cfg k).align - 1) (some (a.va, a.pa))⟩,
            ⟨.seq, .ringRegister k i o (ringParams (t.ring k i)) (some h)⟩],
        mem := t.mem, env := t.env }

/-- R111, R116, R117 (d), R97: each request the rules name is `CONFIG_ERR` with zero results, before any port operation and
with no other change. -/
def Obligations.RingSetupConfigurationErrors : Prop :=
  ∀ (s : State) (n k i o : Nat), Accepted s n →
    k = 5 ∨ (classOf s.cfg k).valid = false ∨ (classOf s.cfg k).maxInst ≤ i ∨ (s.ring k i).registered = true ∨ n = 0 ∨
      2 ^ 32 - 1 < n * (classOf s.cfg k).entrySize.toNat + (classOf s.cfg k).align - 1 →
    exec (.ringSetup k i o) s = .next { s with err := .configErr, res0 := 0, res1 := 0, seq := {} }

/-- R112: `RING_SETUP` asks once for exactly `entries*entry_size + align - 1` bytes, and when the allocator answers null it
ends with `ALLOC_FAIL`: the ring record and `LIVE` are unchanged and nothing is registered. -/
def Obligations.RingSetupFailsWithoutMemory : Prop :=
  ∀ (s : State) (n k i o : Nat), Accepted s n → k ≠ idleClass → slotExists s.cfg k i = true →
    (s.ring k i).registered = false → n ≠ 0 →
    n * (classOf s.cfg k).entrySize.toNat + (classOf s.cfg k).align - 1 ≤ 2 ^ 32 - 1 →
    (hostAllocCoherent (ringSize s.cfg k n) s).1 = none →
    ∃ e, exec (.ringSetup k i o) s = .next { s with
      err := .allocFail, res0 := 0, res1 := 0, seq := {},
      hist := s.hist ++ [⟨.seq, .allocCoherent (n * (classOf s.cfg k).entrySize.toNat + (classOf s.cfg k).align - 1) none⟩],
      env := e }

/-- R115, R116: when the engine rejects the ring, the region just obtained is freed, the ring record stays as it was, and the
command ends with `REG_FAIL`. Memory changes only in the region, whose bytes have no value (log 14). -/
def Obligations.RingSetupFailsWhenRejected : Prop :=
  ∀ (s : State) (n k i o : Nat) (a : Alloc), configValid s.cfg = true → Accepted s n → k ≠ idleClass →
    slotExists s.cfg k i = true → (s.ring k i).registered = false → n ≠ 0 →
    n * (classOf s.cfg k).entrySize.toNat + (classOf s.cfg k).align - 1 ≤ 2 ^ 32 - 1 →
    (hostAllocCoherent (ringSize s.cfg k n) s).1 = some a →
    (engRingRegister ⟨k, i, o, n⟩ (ringParams (ringRecord s.cfg ⟨k, i, o, n⟩ a 0))
      (hostAllocCoherent (ringSize s.cfg k n) s).2).1 = none →
    ∃ t, exec (.ringSetup k i o) s = .next t ∧
      (∀ x, outside x a → Memory.read t.mem x = Memory.read s.mem x) ∧
      t = { s with
        err := .regFail, res0 := 0, res1 := 0, seq := {},
        hist := s.hist ++
          [⟨.seq, .allocCoherent (n * (classOf s.cfg k).entrySize.toNat + (classOf s.cfg k).align - 1) (some (a.va, a.pa))⟩,
            ⟨.seq, .ringRegister k i o (ringParams (ringRecord s.cfg ⟨k, i, o, n⟩ a 0)) none⟩,
            ⟨.seq, .freeCoherent a⟩],
        mem := t.mem, env := t.env }

/-- R118, R120: `RING_CLEANUP` of a registered ring tells the engine first, then frees the raw region, clears the record and
completes `OK`; no other ring, no byte of memory and nothing else changes. -/
def Obligations.RingCleanupFreesTheRing : Prop :=
  ∀ (s : State) (k i : Nat), s.seq.pos = .start → k ≠ idleClass → k < 16 → i < 8 → slotExists s.cfg k i = true →
    (s.ring k i).registered = true → (s.ring k i).hnd ∈ s.engReg →
    ⟨(s.ring k i).rawVa, (s.ring k i).rawPa, (s.ring k i).rawSize⟩ ∈ s.live →
    ∃ t, exec (.ringCleanup k i) s = .next t ∧ t.ring k i = {} ∧
      (∀ k' < 16, ∀ i' < 8, ¬(k' = k ∧ i' = i) → t.ring k' i' = s.ring k' i') ∧
      t = { s with
        err := .ok, res0 := 0, res1 := 0, seq := {}, rings := t.rings,
        live := s.live.erase ⟨(s.ring k i).rawVa, (s.ring k i).rawPa, (s.ring k i).rawSize⟩,
        engReg := s.engReg.erase (s.ring k i).hnd,
        hist := s.hist ++ [⟨.seq, .ringUnregister (s.ring k i).hnd⟩,
          ⟨.seq, .freeCoherent ⟨(s.ring k i).rawVa, (s.ring k i).rawPa, (s.ring k i).rawSize⟩⟩] }

/-- R119, R29: cleanup of a ring that is not registered performs no port operation; it counts one warning, saturating, and
completes `OK`. -/
def Obligations.RingCleanupOfUnregisteredRingWarns : Prop :=
  ∀ (s : State) (k i : Nat), s.seq.pos = .start → k ≠ idleClass → slotExists s.cfg k i = true →
    (s.ring k i).registered = false →
    exec (.ringCleanup k i) s = .next { s with
      err := .ok, res0 := 0, res1 := 0, seq := {}, warnCnt := BitVec.ofNat 32 (min (s.warnCnt.toNat + 1) (2 ^ 32 - 1)) }

/-- R118, R97: `RING_CLEANUP` of class 5, of an invalid class or of an instance out of range is `CONFIG_ERR` and changes
nothing else. -/
def Obligations.RingCleanupConfigurationErrors : Prop :=
  ∀ (s : State) (k i : Nat), s.seq.pos = .start →
    k = 5 ∨ (classOf s.cfg k).valid = false ∨ (classOf s.cfg k).maxInst ≤ i →
    exec (.ringCleanup k i) s = .next { s with err := .configErr, res0 := 0, res1 := 0, seq := {} }

/-! ## The pool commands -/

/-- R131, R134, R137, R139, R140: each request that phase `PLAN` turns away is `CONFIG_ERR` with zero results, before any
port operation and with no other change. -/
def Obligations.PoolSetupConfigurationErrors : Prop :=
  ∀ (s : State) (m : Nat), Accepted s m →
    (let total := pow2Ceil (rawCount s.cfg m)
    let nsb := ceilDiv (8 * total) s.cfg.scatterBufSize
    s.pool.valid = true ∨ m = 0 ∨ 2 ^ 31 < rawCount s.cfg m ∨ s.cfg.maxLinkDescBanks < banksNeeded s.cfg total ∨
      (s.cfg.maxAllocSize < 8 * total ∧
        (s.cfg.maxScatterBufs < nsb ∨ nsb * (s.cfg.scatterBufSize / 8) < total))) →
    exec .linkPoolSetup s = .next { s with err := .configErr, res0 := 0, res1 := 0, seq := {} }

/-- R130, R141 to R143, R147, R148, R152 to R156: from a consistent machine without a pool, a planned `LINK_POOL_SETUP`
always ends. When the host and the engine agree to everything it completes `OK` with a valid pool, the allocations of the plan
in order and nothing freed, on the in-ring path with the ring's handle registered, its producer indices at the total and the
bracket closed; else it ends with the code of the first refusal, everything obtained is freed in reverse order
and the machine is as it was. The clause on the idle-list ring's size is the model's own (log 13). -/
def Obligations.PoolSetupOutcome : Prop :=
  ∀ (s : State) (m total : Nat), Consistent s → Accepted s m → s.pool.valid = false → planTotal s.cfg m = some total →
    ∃ (t : State) (es : List Event), exec .linkPoolSetup s = .next t ∧
      t = { s with
        err := t.err, res0 := t.res0, res1 := t.res1, seq := {}, rings := t.rings, producer := t.producer,
        banks := t.banks, scats := t.scats, pool := t.pool, live := t.live, engReg := t.engReg, engIdle := t.engIdle,
        hist := s.hist ++ es, mem := t.mem, env := t.env } ∧
      (∀ e ∈ es, e.agent = .seq) ∧
      (∀ k < 16, ∀ i < 8, ¬(k = idleClass ∧ i = 0) → t.ring k i = s.ring k i) ∧
      (∀ x, (∀ a ∈ obtained es, outside x a) → Memory.read t.mem x = Memory.read s.mem x) ∧
      ((∀ e ∈ es, agreed e.op = true) ∧
          (idlePathFor s.cfg total = .inRing → ringSize s.cfg idleClass total ≤ wordMax) →
        t.err = .ok ∧ t.res0 = BitVec.ofNat 32 total ∧
          t.res1 = BitVec.ofNat 32 (banksNeeded s.cfg total + 2 ^ 16 * t.pool.numScatterBufs) ∧
          t.pool.valid = true ∧ poolTotal t = total ∧ ValidPool t ∧ TablesOk t ∧ t.engIdle = true ∧
          requested es = (List.range (banksNeeded s.cfg total)).map (bankSize s.cfg total) ++
            (match idlePathFor s.cfg total with
              | .inRing => [ringSize s.cfg idleClass total]
              | .scatter => List.replicate (scatterBufsNeeded s.cfg total) s.cfg.scatterBufSize) ∧
          released es = [] ∧ t.live = s.live ++ obtained es ∧
          (match idlePathFor s.cfg total with
            | .inRing =>
              t.engReg = s.engReg ++ [(t.ring idleClass 0).hnd] ∧ t.producer.wrShadow = total ∧ t.producer.wrHw = total ∧
                t.producer.rd = 0 ∧ t.producer.bracketOpen = false
            | .scatter => t.engReg = s.engReg ∧ t.rings = s.rings ∧ t.producer = s.producer)) ∧
      (¬((∀ e ∈ es, agreed e.op = true) ∧
          (idlePathFor s.cfg total = .inRing → ringSize s.cfg idleClass total ≤ wordMax)) →
        t.err = failureCode es ∧ t.res0 = 0 ∧ t.res1 = 0 ∧ t.pool = {} ∧ t.banks = s.banks ∧ t.scats = s.scats ∧
          t.rings = s.rings ∧ t.producer = s.producer ∧ t.engIdle = s.engIdle ∧ t.live.Perm s.live ∧
          t.engReg.Perm s.engReg ∧ released es = (obtained es).reverse)

/-- R144, R146, R149, R150, R157 P3: after a successful setup the entries were written in the order of the walk, one for each
descriptor, entry `n` at its own address, each descriptor once, and memory holds their images. -/
def Obligations.PoolSetupPublishesEveryDescriptor : Prop :=
  ∀ (s t : State) (m total : Nat) (es : List Event), Consistent s → Accepted s m → s.pool.valid = false →
    planTotal s.cfg m = some total → exec .linkPoolSetup s = .next t → t.err = .ok → t.hist = s.hist ++ es →
    linked es = (descWalk t).zipIdx.map (fun p => (entrySlot t p.2, p.1.1, p.1.2)) ∧
      (descWalk t).length = total ∧ ((descWalk t).map Prod.snd).Nodup ∧
      (∀ n b d, (descWalk t)[n]? = some (b, d) →
        Memory.readLe t.mem (entrySlot t n).toNat idleEntrySize = some (d.toNat + 2 ^ 40 * b))

/-- R130, R153, R227: with the reference host and engine agreeing to everything and room above the allocator's cursor,
`LINK_POOL_SETUP` succeeds. The reference environment as part of the state is the model's own (log 23). -/
def Obligations.PoolSetupSucceedsWithTheReferenceHost : Prop :=
  ∀ (s : State) (m total : Nat) (r : RefEnv), Consistent s → Accepted s m → s.pool.valid = false →
    planTotal s.cfg m = some total →
    (idlePathFor s.cfg total = .inRing → ringSize s.cfg idleClass total ≤ wordMax ∧ 41 ∉ s.engReg) →
    s.env.reference = some r → r.alloc = [] → r.engine = [] →
    (∀ a ∈ s.live, a.pa.toNat + a.size.toNat ≤ r.cursor) → r.cursor + poolRoom s.cfg total ≤ addressSpace →
    ∃ t, exec .linkPoolSetup s = .next t ∧ t.err = .ok ∧ t.res0 = BitVec.ofNat 32 total ∧
      t.res1 = BitVec.ofNat 32 (banksNeeded s.cfg total +
        2 ^ 16 * (match idlePathFor s.cfg total with
          | .inRing => 0
          | .scatter => scatterBufsNeeded s.cfg total)) ∧
      t.pool.valid = true ∧ poolTotal t = total ∧ t.pool.numBanks = banksNeeded s.cfg total ∧
      t.pool.idlePath = idlePathFor s.cfg total ∧ t.engIdle = true ∧ t.seq = {}

/-- R160, R155, R161, R162: `LINK_POOL_CLEANUP` always completes `OK`: it unregisters and frees the idle-list ring if there is
one, then frees the scatter buffers and the banks, each from the last to the first, and clears every record; without a pool
it performs no port operation. No byte of memory changes. -/
def Obligations.PoolCleanupFreesEverything : Prop :=
  ∀ (s : State) (n : Nat), Consistent s → Accepted s n →
    ∃ t, exec .linkPoolCleanup s = .next t ∧
      t = { s with
        err := .ok, res0 := 0, res1 := 0, seq := {}, rings := t.rings, producer := {}, banks := t.banks, scats := t.scats,
        pool := {}, live := t.live, engReg := t.engReg, engIdle := false,
        hist := s.hist ++
          (if (s.ring idleClass 0).registered then
            [⟨.seq, .ringUnregister (s.ring idleClass 0).hnd⟩,
              ⟨.seq, .freeCoherent ⟨(s.ring idleClass 0).rawVa, (s.ring idleClass 0).rawPa,
                (s.ring idleClass 0).rawSize⟩⟩]
          else []) ++
          ((List.range s.pool.numScatterBufs).reverse.map fun n =>
            ⟨.seq, .freeCoherent ⟨(s.scat n).va, (s.scat n).pa, BitVec.ofNat 32 s.cfg.scatterBufSize⟩⟩) ++
          ((List.range s.pool.numBanks).reverse.map fun b =>
            ⟨.seq, .freeCoherent ⟨(s.bank b).rawVa, (s.bank b).rawPa, (s.bank b).size⟩⟩) } ∧
      t.ring idleClass 0 = {} ∧ (∀ k < 16, ∀ i < 8, ¬(k = idleClass ∧ i = 0) → t.ring k i = s.ring k i) ∧
      (∀ b < 256, t.bank b = {}) ∧ (∀ n < 256, t.scat n = {}) ∧
      t.live.Perm (ringPlaces.filterMap fun p => ringRegion (t.ring p.1 p.2)) ∧
      t.engReg.Perm (ringPlaces.filterMap fun p =>
        if (t.ring p.1 p.2).registered then some (t.ring p.1 p.2).hnd else none)

/-! ## The dispatcher commands -/

/-- R171: `DISP_ATTACH` while attached is `CONFIG_ERR` and changes nothing else. -/
def Obligations.AttachWhenAttachedFails : Prop :=
  ∀ s : State, s.seq.pos = .start → s.disp.attached = true →
    exec .dispAttach s = .next { s with err := .configErr, res0 := 0, res1 := 0, seq := {} }

/-- R170, R172, R173, R213: in event-driven mode `DISP_ATTACH` gives every context its masks, registers every relevant ring
instance once, in the order of the rule, with handles that are not 0 and in use nowhere, and completes `OK` with the number
of sources. Which handle takes the place of a forbidden one is the model's own (log 27). -/
def Obligations.AttachRegistersEverySource : Prop :=
  ∀ s : State, configValid s.cfg = true → s.seq.pos = .start → s.disp.attached = false → s.mode = .event →
    s.disp.irqReg.length ≤ 19 →
    ∃ (t : State) (hs : List Handle), exec .dispAttach s = .next t ∧ hs.length = (tableSources s.cfg).length ∧
      hs.Nodup ∧ (∀ h ∈ hs, h ≠ 0 ∧ h ∉ irqHandles s) ∧
      t.disp.irqReg = s.disp.irqReg ++ ((tableSources s.cfg).zip hs).map
        (fun p => ⟨BitVec.ofNat 8 p.1.1, BitVec.ofNat 4 p.1.2, p.2⟩) ∧
      (∀ c, t.ctx c = if c < s.cfg.numCtx then
          { s.ctx c with
            txMask := rowMask (maskRow s.cfg c) 0, rxDstMask := rowMask (maskRow s.cfg c) 1,
            rxExcMask := rowMask (maskRow s.cfg c) 2, rxRelMask := rowMask (maskRow s.cfg c) 3,
            reoMask := rowMask (maskRow s.cfg c) 4 }
        else s.ctx c) ∧
      t = { s with
        err := .ok, res0 := BitVec.ofNat 32 t.disp.irqReg.length, res1 := 0, seq := {}, ctxs := t.ctxs,
        disp := { s.disp with attached := true, irqReg := t.disp.irqReg },
        hist := s.hist ++ ((tableSources s.cfg).zip hs).map
          (fun p => ⟨.seq, .registerInterrupt p.1.1 p.1.2 p.2⟩),
        env := t.env }

/-- R174, R172: in poll mode `DISP_ATTACH` gives every context its masks, creates the timer and starts it with the present
`POLL_PERIOD`; no source is registered and `RES0 = 0`. -/
def Obligations.AttachStartsThePollTimer : Prop :=
  ∀ s : State, configValid s.cfg = true → s.seq.pos = .start → s.disp.attached = false → s.mode = .poll →
    s.disp.irqReg = [] →
    ∃ t, exec .dispAttach s = .next t ∧
      (∀ c, t.ctx c = if c < s.cfg.numCtx then
          { s.ctx c with
            txMask := rowMask (maskRow s.cfg c) 0, rxDstMask := rowMask (maskRow s.cfg c) 1,
            rxExcMask := rowMask (maskRow s.cfg c) 2, rxRelMask := rowMask (maskRow s.cfg c) 3,
            reoMask := rowMask (maskRow s.cfg c) 4 }
        else s.ctx c) ∧
      t = { s with
        err := .ok, res0 := 0, res1 := 0, seq := {}, ctxs := t.ctxs,
        disp := { attached := true, irqReg := [], timer := .running },
        hist := s.hist ++ [⟨.seq, .timerInit⟩, ⟨.seq, .timerStart s.pollPeriod⟩] }

/-- R181: `DISP_DETACH` while not attached performs no port operation, changes no state and completes `OK`. -/
def Obligations.DetachWhenNotAttachedDoesNothing : Prop :=
  ∀ s : State, s.seq.pos = .start → s.disp.attached = false →
    exec .dispDetach s = .next { s with err := .ok, res0 := 0, res1 := 0, seq := {} }

/-- R180, R182, R184, R185: in event-driven mode `DISP_DETACH` frees every source from the last to the first and cancels
every pending invocation. While a context runs it is then held; when none does, it clears every mask and completes `OK`. -/
def Obligations.DetachFreesEverySource : Prop :=
  ∀ s : State, configValid s.cfg = true → s.seq.pos = .start → s.disp.attached = true → s.mode = .event →
    s.disp.irqReg.length ≤ 19 →
    ((∃ c < s.cfg.numCtx, (s.ctx c).busy = true) →
      ∃ t, exec .dispDetach s = .next t ∧ t.busy = true ∧
        (∀ c, t.ctx c = if c < s.cfg.numCtx then { s.ctx c with pend := false, pendBudget := 0 } else s.ctx c) ∧
        t = { s with
          seq := { s.seq with op := .dispDetach, pos := .detachWait }, ctxs := t.ctxs,
          disp := { s.disp with irqReg := [] },
          hist := s.hist ++ s.disp.irqReg.reverse.map (fun r => ⟨.seq, .freeInterrupt r.handle⟩) }) ∧
    ((∀ c < s.cfg.numCtx, (s.ctx c).busy = false) →
      ∃ t, exec .dispDetach s = .next t ∧
        (∀ c, t.ctx c = if c < s.cfg.numCtx then
            { s.ctx c with
              pend := false, pendBudget := 0, txMask := 0, rxDstMask := 0, rxExcMask := 0, rxRelMask := 0, reoMask := 0 }
          else s.ctx c) ∧
        t = { s with
          err := .ok, res0 := 0, res1 := 0, seq := {}, ctxs := t.ctxs,
          disp := { s.disp with attached := false, irqReg := [] },
          hist := s.hist ++ s.disp.irqReg.reverse.map (fun r => ⟨.seq, .freeInterrupt r.handle⟩) })

/-- R180, R183, R185: in poll mode `DISP_DETACH` is held while a pass runs, which is while the timer is stopped; else it stops
and frees the timer, clears every mask and completes `OK`. -/
def Obligations.DetachStopsThePollTimer : Prop :=
  ∀ s : State, configValid s.cfg = true → s.seq.pos = .start → s.disp.attached = true → s.mode = .poll →
    (s.disp.timer = .stopped →
      exec .dispDetach s = .next { s with seq := { s.seq with op := .dispDetach, pos := .timerStop } }) ∧
    (s.disp.timer ≠ .stopped →
      ∃ t, exec .dispDetach s = .next t ∧
        (∀ c, t.ctx c = if c < s.cfg.numCtx then
            { s.ctx c with txMask := 0, rxDstMask := 0, rxExcMask := 0, rxRelMask := 0, reoMask := 0 }
          else s.ctx c) ∧
        t = { s with
          err := .ok, res0 := 0, res1 := 0, seq := {}, ctxs := t.ctxs,
          disp := { s.disp with attached := false, timer := .none },
          hist := s.hist ++ [⟨.seq, .timerStop⟩, ⟨.seq, .timerFree⟩] })

/-! ## The service loop -/

/-- R190, R97: `SERVICE` of a context number out of range is `CONFIG_ERR` and changes nothing else. -/
def Obligations.ServiceOfUnknownContextFails : Prop :=
  ∀ (s : State) (c : Nat), s.seq.pos = .start → s.cfg.numCtx ≤ c →
    exec (.service c) s = .next { s with err := .configErr, res0 := 0, res1 := 0, seq := {} }

/-- R197: `SERVICE` of a context that is being serviced waits: only the sequencer's position changes and `STATUS.BUSY` stays
1. -/
def Obligations.ServiceWaitsForABusyContext : Prop :=
  ∀ (s : State) (c : Nat), s.seq.pos = .start → c < s.cfg.numCtx → (s.ctx c).busy = true →
    ∃ t, exec (.service c) s = .next t ∧ t.busy = true ∧
      t = { s with seq := { s.seq with op := .service, pos := .serviceClaim c } }

/-- R190 to R196, R198, R225: `SERVICE` of an idle context always completes `OK`. It calls the handlers of the rings that the
masks name in the order of R191: the Tx-completion rings by index, Rx exception, Rx release, the Rx-destination rings by index,
each once, each with the whole remaining budget, at least 1; it passes over the rest only when the budget is used up; the
REO-status handler is called whenever its bit is set, last; `RES0` is the budget used, and `FAULT.HANDLER_OVERRUN` is set when
a handler returned more than it was given. No other context, no mask and nothing else changes. That the history names the
sequencer as the caller is the model's inference (log 21); `next` and `runner` are its own (log 17). -/
def Obligations.ServiceDrainsInPriorityOrder : Prop :=
  ∀ (s : State) (n c : Nat), configValid s.cfg = true → Accepted s n → c < s.cfg.numCtx → (s.ctx c).busy = false →
    ∃ (t : State) (es : List Event) (left : Nat), exec (.service c) s = .next t ∧
      Serves .seq c
        (((List.range s.cfg.numTxRings).filter fun i => (s.ctx c).txMask.getLsbD i).map Slot.tx ++
          (if (s.ctx c).rxExcMask.getLsbD 0 then [Slot.rxExc] else []) ++
          (if (s.ctx c).rxRelMask.getLsbD 0 then [Slot.rxRel] else []) ++
          ((List.range s.cfg.numRxRings).filter fun i => (s.ctx c).rxDstMask.getLsbD i).map Slot.rxDst)
        ((s.ctx c).reoMask.getLsbD 0) n es left ∧
      t.handlerOverrun = (s.handlerOverrun || overrun es) ∧ t.ctx c = servedCtx (s.ctx c) n left ∧
      (∀ d, d ≠ c → t.ctx d = s.ctx d) ∧
      t = { s with
        err := .ok, res0 := BitVec.ofNat 32 (n - left), res1 := 0, seq := {}, ctxs := t.ctxs,
        handlerOverrun := t.handlerOverrun, hist := s.hist ++ es, env := t.env }

/-- R199: a context whose five masks are all 0 calls no handler; `SERVICE` returns 0 and the whole budget remains. It is no
error. -/
def Obligations.ServiceOfEmptyMasksCallsNothing : Prop :=
  ∀ (s : State) (n c : Nat), configValid s.cfg = true → Accepted s n → c < s.cfg.numCtx → (s.ctx c).busy = false →
    (s.ctx c).txMask = 0 → (s.ctx c).rxDstMask = 0 → (s.ctx c).rxExcMask = 0 → (s.ctx c).rxRelMask = 0 →
    (s.ctx c).reoMask = 0 →
    ∃ t, exec (.service c) s = .next t ∧ t.err = .ok ∧ t.res0 = 0 ∧ (t.ctx c).rem = BitVec.ofNat 32 n ∧
      (t.ctx c).budgetIn = BitVec.ofNat 32 n ∧ (t.ctx c).lastWork = 0 ∧ (t.ctx c).busy = false ∧
      (∀ d, d ≠ c → t.ctx d = s.ctx d) ∧
      t = { s with err := .ok, res0 := 0, res1 := 0, seq := {}, ctxs := t.ctxs }

/-! ## Events, service agents, the poll pass -/

/-- R251, R252: an event of a source that is not registered changes nothing; an event of a registered one requests an
invocation of the owning context with the present `SVC_BUDGET`, unless one is pending already, whether or not the context is
busy. -/
def Obligations.EventsRequestInvocations : Prop :=
  ∀ (s : State) (source : Nat) (rest : List Move), configValid s.cfg = true → s.env.moves = .irq source :: rest →
    ((∀ r ∈ s.disp.irqReg, r.source.toNat ≠ source) → step s = .next (moved rest s)) ∧
    (∀ r, s.disp.irqReg.find? (fun r => r.source.toNat == source) = some r →
      ((s.ctx r.ctx.toNat).pend = true → step s = .next (moved rest s)) ∧
      ((s.ctx r.ctx.toNat).pend = false →
        ∃ t, step s = .next t ∧
          t.ctx r.ctx.toNat = { s.ctx r.ctx.toNat with pend := true, pendBudget := s.svcBudget } ∧
          (∀ d, d ≠ r.ctx.toNat → t.ctx d = s.ctx d) ∧ t = { moved rest s with ctxs := t.ctxs }))

/-- R254, R253: the service agent of a context with a pending invocation and none running starts it in one step, with the
budget noted at delivery; while another invocation of the context runs, the pending one waits. The phase and the budget
fields are set in the same step (log 17). -/
def Obligations.PendingInvocationsStart : Prop :=
  ∀ (s : State) (c : Nat) (rest : List Move), configValid s.cfg = true → s.env.moves = .svc c :: rest →
    c < s.cfg.numCtx →
    ((s.ctx c).busy = true ∧ (s.ctx c).runner ≠ .svc → step s = .next (moved rest s)) ∧
    ((s.ctx c).busy = false ∧ (s.ctx c).pend = false → step s = .next (moved rest s)) ∧
    ((s.ctx c).busy = false ∧ (s.ctx c).pend = true →
      ∃ t, step s = .next t ∧
        t.ctx c = { s.ctx c with
          pend := false, busy := true, phase := .tx, budgetIn := (s.ctx c).pendBudget, rem := (s.ctx c).pendBudget,
          next := 0, runner := .svc } ∧
        (∀ d, d ≠ c → t.ctx d = s.ctx d) ∧ t = { moved rest s with ctxs := t.ctxs })

/-- R50, R201: a step of a service agent, or of the poll agent for the context it is at, writes only that context's record,
without its masks, `FAULT` bit 0 and the history, and the poll agent its own place and the timer it restarts; the ring table,
the pool, the tables, memory, the registered sources and the sequencer are untouched. -/
def Obligations.ServiceAgentsKeepToTheirContext : Prop :=
  (∀ (s : State) (c : Nat),
    svcStep c s = { s with
      ctxs := (svcStep c s).ctxs, handlerOverrun := (svcStep c s).handlerOverrun, hist := (svcStep c s).hist,
      env := (svcStep c s).env } ∧
    (∀ d, d ≠ c → (svcStep c s).ctx d = s.ctx d) ∧
    (∀ k, ctxMask ((svcStep c s).ctx c) k = ctxMask (s.ctx c) k) ∧
    (s.handlerOverrun = true → (svcStep c s).handlerOverrun = true) ∧
    (∃ es, (svcStep c s).hist = s.hist ++ es ∧ ∀ e ∈ es, e.agent = .svc c)) ∧
  (∀ s : State,
    pollStep s = { s with
      ctxs := (pollStep s).ctxs, handlerOverrun := (pollStep s).handlerOverrun, hist := (pollStep s).hist,
      env := (pollStep s).env, poll := (pollStep s).poll,
      disp := { s.disp with timer := (pollStep s).disp.timer } } ∧
    (s.poll ≠ .restart → (pollStep s).disp = s.disp) ∧
    (∀ d, s.poll ≠ .claim d → s.poll ≠ .serving d → (pollStep s).ctx d = s.ctx d) ∧
    (∀ d k, ctxMask ((pollStep s).ctx d) k = ctxMask (s.ctx d) k) ∧
    (∀ d, ((pollStep s).ctx d).pend = (s.ctx d).pend) ∧
    (s.handlerOverrun = true → (pollStep s).handlerOverrun = true) ∧
    (∃ es, (pollStep s).hist = s.hist ++ es ∧ ∀ e ∈ es, e.agent = .poll))

/-- R254, R297, R191, R195, R225: an event-started invocation ends: from wherever it is, within 19 handler calls and its end;
and from its start on, within one step more, having called the handlers that its context's masks name in the order of R191
with the budget noted at delivery. The step bounds count the model's steps, and `next` and `runner` are its own (log 17). -/
def Obligations.InvocationsEnd : Prop :=
  (∀ (s : State) (c : Nat), configValid s.cfg = true → c < s.cfg.numCtx → (s.ctx c).busy = true →
    (s.ctx c).runner = .svc →
    ∃ n ≤ 20, ((svcStep c)^[n] s).ctx c = { s.ctx c with
        busy := false, phase := .idle, ringIdx := 0, next := 0, runner := .svc, rem := (((svcStep c)^[n] s).ctx c).rem,
        lastWork := (s.ctx c).budgetIn - (((svcStep c)^[n] s).ctx c).rem } ∧
      ∀ m < n, (((svcStep c)^[m] s).ctx c).busy = true) ∧
  (∀ (s : State) (c : Nat), configValid s.cfg = true → c < s.cfg.numCtx → (s.ctx c).busy = false →
    (s.ctx c).pend = true →
    ∃ (n : Nat) (t : State) (es : List Event) (left : Nat), n ≤ 21 ∧ (svcStep c)^[n] s = t ∧
      (∀ m < n, 0 < m → (((svcStep c)^[m] s).ctx c).busy = true) ∧
      Serves (.svc c) c (budgetedRings s.cfg (s.ctx c)) ((s.ctx c).reoMask.getLsbD 0) (s.ctx c).pendBudget.toNat es left ∧
      t.handlerOverrun = (s.handlerOverrun || overrun es) ∧
      t.ctx c = servedCtx { s.ctx c with pend := false } (s.ctx c).pendBudget.toNat left ∧
      (∀ d, d ≠ c → t.ctx d = s.ctx d) ∧
      t = { s with ctxs := t.ctxs, handlerOverrun := t.handlerOverrun, hist := s.hist ++ es, env := t.env })

/-- R257, R259: a timer fire while the timer runs stops it and starts a pass; a fire while there is no timer or a stopped one
changes nothing. -/
def Obligations.TimerFiresOnlyWhileRunning : Prop :=
  ∀ (s : State) (rest : List Move), configValid s.cfg = true → s.env.moves = .timerFire :: rest →
    (s.disp.timer = .running →
      step s = .next { moved rest s with disp := { s.disp with timer := .stopped }, poll := .claim 0 }) ∧
    (s.disp.timer ≠ .running → step s = .next (moved rest s))

/-- R257, R258, R191, R195: with no context busy, a pass that has come to context `c` serves the contexts from `c` on in
ascending order, each with the maximal budget and as R191 says, and ends by starting the timer with the present `POLL_PERIOD`;
nothing else changes. The bound counts the model's steps, and `next` and `runner` are its own (log 17). -/
def Obligations.PollPassesEnd : Prop :=
  ∀ (s : State) (c : Nat), configValid s.cfg = true → s.poll = .claim c → c < s.cfg.numCtx →
    (∀ d < s.cfg.numCtx, (s.ctx d).busy = false) →
    ∃ (n : Nat) (t : State) (served : Nat → List Event) (left : Nat → Nat), n ≤ 337 ∧ pollStep^[n] s = t ∧
      (∀ d, c ≤ d → d < s.cfg.numCtx →
        Serves .poll d (budgetedRings s.cfg (s.ctx d)) ((s.ctx d).reoMask.getLsbD 0) (2 ^ 32 - 1) (served d) (left d) ∧
          t.ctx d = servedCtx (s.ctx d) (2 ^ 32 - 1) (left d)) ∧
      (∀ d, d < c ∨ s.cfg.numCtx ≤ d → t.ctx d = s.ctx d) ∧
      t.handlerOverrun =
        (s.handlerOverrun || (List.range' c (s.cfg.numCtx - c)).any fun d => overrun (served d)) ∧
      t = { s with
        ctxs := t.ctxs, handlerOverrun := t.handlerOverrun, poll := .idle, disp := { s.disp with timer := .running },
        hist := s.hist ++ (List.range' c (s.cfg.numCtx - c)).flatMap served ++ [⟨.poll, .timerStart s.pollPeriod⟩],
        env := t.env }

/-! ## Registers and reset -/

/-- R26, R50, R51, R72, R74: a host write reaches `CMD`, `ARG0`, `SVC_BUDGET` and `POLL_PERIOD` only, and the last three store
any value and read it back; an access of another width or at an offset that is no multiple of 4 is ignored, or reads 0. The
window stands at `MGR_BASE`, wherever that is. That an access below it changes nothing here is the model's own (log 19). -/
def Obligations.HostAccessesKeepToTheWindow : Prop :=
  ∀ (s : State) (width offset : Nat) (v : Word),
    (width ≠ 4 ∨ offset % 4 ≠ 0 ∨ (offset ≠ 0x004 ∧ offset ≠ 0x008 ∧ offset ≠ 0x020 ∧ offset ≠ 0x024) →
      hostWrite width offset v s = s) ∧
    hostWrite 4 0x008 v s = { s with arg0 := v } ∧ readReg (hostWrite 4 0x008 v s) 0x008 = v ∧
    hostWrite 4 0x020 v s = { s with svcBudget := v } ∧ readReg (hostWrite 4 0x020 v s) 0x020 = v ∧
    hostWrite 4 0x024 v s = { s with pollPeriod := v } ∧ readReg (hostWrite 4 0x024 v s) 0x024 = v ∧
    (width ≠ 4 ∨ offset % 4 ≠ 0 → hostRead width offset s = { s with hostData := 0 }) ∧
    (offset % 4 = 0 → hostRead 4 offset s = { s with hostData := readReg s offset }) ∧
    applyMove (.hostWrite width (s.cfg.mgrBase + offset) v) s = .next (hostWrite width offset v s) ∧
    applyMove (.hostRead width (s.cfg.mgrBase + offset)) s = .next (hostRead width offset s) ∧
    (∀ address < s.cfg.mgrBase, applyMove (.hostWrite width address v) s = .next s ∧
      applyMove (.hostRead width address) s = .next s)

/-- R26, R52: after reset every offset of the window reads its reset value. -/
def Obligations.ResetRegisterValues : Prop :=
  ∀ (c : Config) (strap : Mode) (offset : Nat),
    readReg (State.resetWith c strap) offset =
      if offset = 0x000 then 0x52494C4D
      else if offset = 0x00C then (match strap with | .event => 0 | .poll => 0x400)
      else if offset = 0x020 then c.defaultEventBudget
      else if offset = 0x024 then c.defaultPollPeriod
      else 0

/-- R28: the fields of `STATUS`; the reserved bits read 0. -/
def Obligations.StatusRegisterFields : Prop :=
  ∀ s : State,
    (readReg s 0x00C).getLsbD 0 = s.busy ∧ (readReg s 0x00C).extractLsb' 1 3 = 0 ∧
      (readReg s 0x00C).extractLsb' 4 4 =
        (match s.err with | .ok => 0 | .allocFail => 1 | .regFail => 2 | .configErr => 3 | .illegalCmd => 4) ∧
      (readReg s 0x00C).getLsbD 8 = s.pool.valid ∧ (readReg s 0x00C).getLsbD 9 = s.disp.attached ∧
      (readReg s 0x00C).getLsbD 10 = decide (s.mode = .poll) ∧
      (readReg s 0x00C).getLsbD 11 = decide (s.pool.idlePath = .scatter) ∧ (readReg s 0x00C).extractLsb' 12 20 = 0

/-- R27, R29, R30, R32, R42: the single registers besides `STATUS` show their state in the places of the rules, and the
remaining bits of `FAULT` and `SEQ_STAT` read 0. What `SEQ_STAT` shows for a word without an operation and which index it
shows are the model's inferences (logs 10, 11, 12); the bounds on the counts are those of R41. -/
def Obligations.MainRegistersShowTheirState : Prop :=
  ∀ s : State,
    readReg s 0x000 = 0x52494C4D ∧ readReg s 0x004 = s.cmd ∧ readReg s 0x008 = s.arg0 ∧ readReg s 0x010 = s.res0 ∧
      readReg s 0x014 = s.res1 ∧ readReg s 0x018 = s.warnCnt ∧ readReg s 0x020 = s.svcBudget ∧
      readReg s 0x024 = s.pollPeriod ∧
    ((readReg s 0x01C).getLsbD 0 = s.handlerOverrun ∧ (readReg s 0x01C).getLsbD 1 = s.cmdOverrun ∧
      (readReg s 0x01C).extractLsb' 2 30 = 0) ∧
    (readReg s 0x028 = s.pool.totalLinkDescs ∧ readReg s 0x030 = s.pool.tailOffset ∧
      (s.pool.numBanks ≤ 256 → s.pool.numScatterBufs ≤ 256 →
        ((readReg s 0x02C).extractLsb' 0 16).toNat = s.pool.numBanks ∧
          ((readReg s 0x02C).extractLsb' 16 16).toNat = s.pool.numScatterBufs)) ∧
    ((readReg s 0x034).extractLsb' 0 4 =
        (match s.seq.op with
          | .none => 0
          | .ringSetup => 1
          | .ringCleanup => 2
          | .linkPoolSetup => 3
          | .linkPoolCleanup => 4
          | .dispAttach => 5
          | .dispDetach => 6
          | .service => 7) ∧
      (s.seq.pos = .idle → (readReg s 0x034).extractLsb' 4 4 = 0) ∧
      (s.seq.pos ≠ .idle → s.seq.op ≠ .none → s.seq.op ≠ .linkPoolSetup → (readReg s 0x034).extractLsb' 4 4 = 1) ∧
      (s.seq.op = .linkPoolSetup →
        match s.seq.pos with
        | .start => (readReg s 0x034).extractLsb' 4 4 = 1
        | .bankAlloc b => readReg s 0x034 = BitVec.ofNat 32 (3 + 2 ^ 4 * 2 + 2 ^ 8 * (b % 2 ^ 16))
        | .ringAlloc _ | .ringRegister _ _ | .ringReject _ => (readReg s 0x034).extractLsb' 4 4 = 3
        | .scatterAlloc n => readReg s 0x034 = BitVec.ofNat 32 (3 + 2 ^ 4 * 4 + 2 ^ 8 * (n % 2 ^ 16))
        | .accessStart | .getNext _ _ | .setLink _ _ _ | .accessEnd | .scatterLink _ _ =>
          (readReg s 0x034).extractLsb' 4 4 = 5
        | .publishRing | .publishScatter => (readReg s 0x034).extractLsb' 4 4 = 6
        | .ringUnregister _ _ | .ringFree _ _ | .unwindScatter | .unwindBank =>
          (readReg s 0x034).extractLsb' 4 4 = 7
        | _ => True) ∧
      (readReg s 0x034).extractLsb' 24 8 = 0 ∧ (s.seq = {} → readReg s 0x034 = 0 ∧ readReg s 0x038 = 0) ∧
      (s.seq.cursor < 2 ^ 32 → (readReg s 0x038).toNat = s.seq.cursor))

/-- R38, R42, R44, R46: the windows of a ring, a bank, a scatter buffer and a context show their records' fields in the
places of the rules, and every other bit of them reads 0. -/
def Obligations.WindowsShowTheirRecords : Prop :=
  ∀ s : State,
    (∀ k < 16, ∀ i < 8, slotExists s.cfg k i = true →
      let w := 0x2000 + 0x20 * (8 * k + i)
      readReg s w = (s.ring k i).basePa.extractLsb' 0 32 ∧
        (readReg s (w + 4)).extractLsb' 0 8 = (s.ring k i).basePa.extractLsb' 32 8 ∧
        (readReg s (w + 4)).getLsbD 8 = (s.ring k i).registered ∧
        (readReg s (w + 4)).getLsbD 9 = (s.ring k i).lowThresIntrEn ∧
        (readReg s (w + 4)).extractLsb' 10 2 = 0 ∧ (readReg s (w + 4)).extractLsb' 12 4 = (s.ring k i).owner ∧
        (readReg s (w + 4)).extractLsb' 16 16 = 0 ∧ readReg s (w + 8) = (s.ring k i).numEntries ∧
        readReg s (w + 12) = (s.ring k i).hnd ∧ readReg s (w + 16) = (s.ring k i).rawPa.extractLsb' 0 32 ∧
        (readReg s (w + 20)).extractLsb' 0 8 = (s.ring k i).rawPa.extractLsb' 32 8 ∧
        (readReg s (w + 20)).extractLsb' 8 24 = 0 ∧
        readReg s (w + 24) = (s.ring k i).rawSize ∧ readReg s (w + 28) = (s.ring k i).lowThres) ∧
    (∀ b < 256, b < s.cfg.maxLinkDescBanks →
      let w := 0x400 + 0x10 * b
      readReg s w = (s.bank b).basePa.extractLsb' 0 32 ∧
        readReg s (w + 4) = ((s.bank b).basePa.extractLsb' 32 8).setWidth 32 ∧ readReg s (w + 8) = (s.bank b).size ∧
        readReg s (w + 12) = (s.bank b).count) ∧
    (∀ n < 256, n < s.cfg.maxScatterBufs →
      let w := 0x1400 + 8 * n
      readReg s w = (s.scat n).pa.extractLsb' 0 32 ∧
        readReg s (w + 4) = ((s.scat n).pa.extractLsb' 32 8).setWidth 32) ∧
    (∀ c < 16, c < s.cfg.numCtx →
      let w := 0x100 + 0x20 * c
      readReg s w = (s.ctx c).txMask.setWidth 32 ∧ readReg s (w + 4) = (s.ctx c).rxDstMask.setWidth 32 ∧
        readReg s (w + 8) = (s.ctx c).rxExcMask.setWidth 32 ∧ readReg s (w + 12) = (s.ctx c).rxRelMask.setWidth 32 ∧
        readReg s (w + 16) = (s.ctx c).reoMask.setWidth 32 ∧ (readReg s (w + 20)).getLsbD 0 = (s.ctx c).pend ∧
        (readReg s (w + 20)).getLsbD 1 = (s.ctx c).busy ∧
        ((readReg s (w + 20)).extractLsb' 4 3).toNat = (s.ctx c).phase.code ∧
        (readReg s (w + 20)).extractLsb' 8 4 = (s.ctx c).ringIdx ∧ (readReg s (w + 20)).extractLsb' 2 2 = 0 ∧
        (readReg s (w + 20)).getLsbD 7 = false ∧ (readReg s (w + 20)).extractLsb' 12 20 = 0 ∧
        readReg s (w + 24) = (s.ctx c).lastWork ∧
        readReg s (w + 28) = (s.ctx c).rem)

/-- R280, R281, R283, R52: whole-system reset performs no port operation and leaves every register, table and ghost at its
reset value, with the mode strap sampled. What the environment and the host's last read keep is the model's own
(logs 26, 29). -/
def Obligations.ResetLeavesTheResetState : Prop :=
  ∀ (s : State) (strap : Mode) (rest : List Move), configValid s.cfg = true → s.env.moves = .reset strap :: rest →
    ∃ t, step s = .next t ∧ t = { State.resetWith s.cfg strap with env := t.env, hostData := s.hostData } ∧
      t.hist = [] ∧ t.live = [] ∧ t.engReg = [] ∧ t.engIdle = false ∧ t.mem = [] ∧ t.mode = strap ∧ t.busy = false

/-! ## Whole-machine statements -/

/-- Every step keeps memory in its canonical form (log 14): the form is the model's own, and R65 gives its bounds. -/
def Obligations.StepKeepsMemoryCanonical : Prop :=
  ∀ s t : State, MemoryOk s → step s = .next t → MemoryOk t

/-- R10, R175, R283: no step changes the configuration, and only reset changes the mode. -/
def Obligations.StepKeepsConfigurationAndMode : Prop :=
  ∀ s t : State, step s = .next t →
    t.cfg = s.cfg ∧ ((∀ strap, (takeMove s).1 ≠ .reset strap) → t.mode = s.mode) ∧
      (∀ strap, (takeMove s).1 = .reset strap → t.mode = strap)

/-- R29: a bit of `FAULT` stays set, and `WARN_CNT` never falls, in every step but reset. -/
def Obligations.FaultBitsAreSticky : Prop :=
  ∀ s t : State, step s = .next t → (∀ strap, (takeMove s).1 ≠ .reset strap) →
    (s.handlerOverrun = true → t.handlerOverrun = true) ∧ (s.cmdOverrun = true → t.cmdOverrun = true) ∧
      s.warnCnt.toNat ≤ t.warnCnt.toNat

/-- R48, R47, R92, R172, R185, R213, R253, R257, R183, R195: every step keeps the dispatcher, the contexts and the agents in
agreement: the command under way is the one in `CMD`, the mode's own mechanism only, one agent per running context, never more
budget left than was given, a pass only with the timer fired, the table's masks and sources while attached and none while not,
and at most 19 sources. -/
def Obligations.StepKeepsTheDispatcherInOrder : Prop :=
  ∀ s t : State, DispatchOk s → step s = .next t → DispatchOk t

/-- R34, R37, R40, R43, R49, R92, R210: every step, of any agent, keeps the machine consistent: the command under way is the one
in `CMD`, live regions apart, every ring as R34 says, the pool and the tables as R40 and R43 say while valid and in step with the
sequencer while being built or torn down, and `LIVE` and `ENG_REG` exactly what the records name. -/
def Obligations.StepKeepsTheMachineConsistent : Prop :=
  ∀ s t : State, Consistent s → step s = .next t → Consistent t

/-- R65, R67, R146, R212, R218, R228, R295: from a consistent machine no step faults, and none is refused but for two breaches
of a precondition that the state shows: a foreign write into an idle list not yet published (R293; log 16), and `RING_CLEANUP`
of a ring that an attached context's mask names (R288; log 24). So no rule frees twice, writes dead memory or asks a full ring
for a slot. -/
def Obligations.ConsistentMachineStopsOnlyOnBreaches : Prop :=
  ∀ s : State, Consistent s →
    (∃ t, step s = .next t) ∨
      (step s = .refused .exclusiveProducerBroken ∧
        ∃ x v, (takeMove s).1 = .extWrite x v ∧ inUnpublishedList s x.toNat = true) ∨
      (step s = .refused .ringStillServiced ∧ ((takeMove s).1 = .command ∨ (takeMove s).1 = .seq) ∧
        ∃ i, decode s.cmd = .ok i ∧ CleanupWhileServiced i s)

/-- R52, R280: after reset, under any valid configuration, the machine is consistent, the dispatcher in order and memory
canonical. -/
def Obligations.ResetIsConsistent : Prop :=
  ∀ (c : Config) (strap : Mode), configValid c = true →
    Consistent (State.resetWith c strap) ∧ DispatchOk (State.resetWith c strap) ∧ MemoryOk (State.resetWith c strap)

/-- R297: from a consistent machine a command's run ends with the command complete or in one of the two holds: a busy context,
or a dispatcher that still services. The bound on the registered sources is R48's. -/
def Obligations.CommandsFinishOrAreHeld : Prop :=
  ∀ (s t : State) (i : Instr), Consistent s → s.seq.pos = .start → s.disp.irqReg.length ≤ 19 → exec i s = .next t →
    t.seq.pos = .idle ∨
      (∃ c, i = .service c ∧ t.seq.pos = .serviceClaim c ∧ (t.ctx c).busy = true) ∨
      (i = .dispDetach ∧ t.seq.pos = .detachWait ∧ ∃ c < t.cfg.numCtx, (t.ctx c).busy = true) ∨
      (i = .dispDetach ∧ t.seq.pos = .timerStop ∧ t.disp.timer = .stopped)

/-- R92 (b), R191: the run of a command is a finite sequence of the sequencer's own steps, so what it leaves is one of the
outcomes of the interleaving in which no other agent steps between (log 4). A cleanup that breaks R288 has no steps
(log 24). -/
def Obligations.RunOfACommandIsItsSteps : Prop :=
  ∀ (s t : State) (i : Instr), s.seq.pos = .start → decode s.cmd = .ok i → ¬CleanupWhileServiced i s →
    exec i s = .next t → ∃ n, seqSteps n s = .next t

/-- R66, R46: the commands that do not set up a ring or a pool leave every byte of memory as it is, and the commands that do
not attach or detach leave every context's masks as they are. -/
def Obligations.CommandsKeepMemoryAndMasks : Prop :=
  ∀ (s t : State) (i : Instr), s.seq.pos = .start → exec i s = .next t →
    ((∀ k n o, i ≠ .ringSetup k n o) → i ≠ .linkPoolSetup →
      ∀ x, Memory.read t.mem x = Memory.read s.mem x) ∧
    (i ≠ .dispAttach → i ≠ .dispDetach → ∀ c k, ctxMask (t.ctx c) k = ctxMask (s.ctx c) k)
end

