-- ==== Sys2Proof/Laws/Memory.lean ====
section
/-! SUPPORT. The laws of coherent memory: reading after a write, and the canonical form kept by every operation. -/

namespace Sys2Proof.Machine

/-! ## Reading -/

theorem Memory.read_write_same (m : List Host.Cell) (x : Nat) (v : Byte) :
    Memory.read (Memory.write m x v) x = some v := by
  induction m with
  | nil => simp [Memory.write, Memory.read]
  | cons c rest ih =>
    obtain ⟨a, b⟩ := c
    simp only [Memory.write]
    split
    · simp [Memory.read]
    · split
      · simp [Memory.read]
      · have h : ¬a = x := fun e => by simp_all
        simp [Memory.read, h, ih]

theorem Memory.read_write_other (m : List Host.Cell) {x y : Nat} (h : x ≠ y) (v : Byte) :
    Memory.read (Memory.write m x v) y = Memory.read m y := by
  induction m with
  | nil => simp [Memory.write, Memory.read, h]
  | cons c rest ih =>
    obtain ⟨a, b⟩ := c
    simp only [Memory.write]
    split
    · simp [Memory.read, h]
    · split
      · subst_vars; simp [Memory.read, h]
      · simp [Memory.read, ih]

theorem Memory.read_writeBytes_before (bs : List Byte) (m : List Host.Cell) {x y : Nat} (h : y < x) :
    Memory.read (Memory.writeBytes m x bs) y = Memory.read m y := by
  induction bs generalizing m x with
  | nil => rfl
  | cons b rest ih =>
    rw [Memory.writeBytes, ih _ (by omega), Memory.read_write_other _ (by omega)]

theorem Memory.read_writeBytes_after (bs : List Byte) (m : List Host.Cell) {x y : Nat} (h : x + bs.length ≤ y) :
    Memory.read (Memory.writeBytes m x bs) y = Memory.read m y := by
  induction bs generalizing m x with
  | nil => rfl
  | cons b rest ih =>
    simp only [List.length_cons] at h
    rw [Memory.writeBytes, ih _ (by omega), Memory.read_write_other _ (by omega)]

theorem Memory.read_writeBytes_inside (bs : List Byte) (m : List Host.Cell) (x : Nat) {j : Nat} (h : j < bs.length) :
    Memory.read (Memory.writeBytes m x bs) (x + j) = some bs[j] := by
  induction bs generalizing m x j with
  | nil => simp at h
  | cons b rest ih =>
    rw [Memory.writeBytes]
    cases j with
    | zero => simp [Memory.read_writeBytes_before, Memory.read_write_same]
    | succ j =>
      simp only [List.length_cons] at h
      rw [show x + (j + 1) = x + 1 + j by omega, ih _ _ (by omega)]
      simp

@[simp] theorem leBytes_length (v n : Nat) : (leBytes v n).length = n := by
  induction n generalizing v with
  | zero => rfl
  | succ n ih => simp [leBytes, ih]

/-- `MemWrite(x, n, v)` leaves every byte outside `x .. x + n - 1` alone. -/
theorem Memory.read_writeLe_outside (m : List Host.Cell) (v : Nat) {x n y : Nat} (h : y < x ∨ x + n ≤ y) :
    Memory.read (Memory.writeLe m x n v) y = Memory.read m y := by
  rcases h with h | h
  · exact Memory.read_writeBytes_before _ _ h
  · exact Memory.read_writeBytes_after _ _ (by simpa using h)

theorem Memory.read_forget (m : List Host.Cell) (lo len y : Nat) :
    Memory.read (Memory.forget m lo len) y = if lo ≤ y ∧ y < lo + len then none else Memory.read m y := by
  induction m with
  | nil => simp [Memory.forget, Memory.read]
  | cons c rest ih =>
    obtain ⟨a, b⟩ := c
    simp only [Memory.forget] at ih
    simp only [Memory.forget, List.filter_cons]
    by_cases hc : lo ≤ a ∧ a < lo + len
    · rw [if_neg (by simp [hc]), ih]
      by_cases hy : a = y
      · subst hy; simp [hc]
      · simp [Memory.read, hy]
    · rw [if_pos (by simp only [Bool.not_eq_true', Bool.and_eq_false_iff, decide_eq_false_iff_not]; omega)]
      by_cases hy : a = y
      · subst hy; simp [hc, Memory.read]
      · simp only [Memory.read, if_neg hy, ih]

/-! ## The canonical form -/

theorem Memory.wfFrom_mono {lo lo' : Nat} (h : lo' ≤ lo) {m : List Host.Cell} (hm : Memory.wfFrom lo m = true) :
    Memory.wfFrom lo' m = true := by
  cases m with
  | nil => rfl
  | cons c rest =>
    obtain ⟨a, b⟩ := c
    simp only [Memory.wfFrom, Bool.and_eq_true, decide_eq_true_eq] at hm ⊢
    exact ⟨⟨by omega, hm.1.2⟩, hm.2⟩

theorem Memory.wfFrom_write (m : List Host.Cell) {lo x : Nat} (v : Byte) (hlo : lo ≤ x) (hx : x < addressSpace)
    (hm : Memory.wfFrom lo m = true) : Memory.wfFrom lo (Memory.write m x v) = true := by
  induction m generalizing lo with
  | nil => simp [Memory.write, Memory.wfFrom, hlo, hx]
  | cons c rest ih =>
    obtain ⟨a, b⟩ := c
    simp only [Memory.wfFrom, Bool.and_eq_true, decide_eq_true_eq] at hm
    simp only [Memory.write]
    split
    · simp only [Memory.wfFrom, Bool.and_eq_true, decide_eq_true_eq]
      exact ⟨⟨hlo, hx⟩, ⟨by omega, hm.1.2⟩, hm.2⟩
    · split
      · subst_vars
        simp only [Memory.wfFrom, Bool.and_eq_true, decide_eq_true_eq]
        exact ⟨⟨hlo, hx⟩, hm.2⟩
      · simp only [Memory.wfFrom, Bool.and_eq_true, decide_eq_true_eq]
        exact ⟨hm.1, ih (by omega) hm.2⟩

/-- A byte written inside the address space keeps the canonical form. -/
theorem Memory.wf_write {m : List Host.Cell} (x : Nat) (v : Byte) (hx : x < addressSpace) (hm : Memory.wf m = true) :
    Memory.wf (Memory.write m x v) = true := Memory.wfFrom_write m v (Nat.zero_le x) hx hm

/-- Consecutive bytes written inside the address space keep the canonical form. -/
theorem Memory.wf_writeBytes (bs : List Byte) {m : List Host.Cell} {x : Nat} (hx : x + bs.length ≤ addressSpace)
    (hm : Memory.wf m = true) : Memory.wf (Memory.writeBytes m x bs) = true := by
  induction bs generalizing m x with
  | nil => exact hm
  | cons b rest ih =>
    simp only [List.length_cons] at hx
    exact ih (by omega) (Memory.wf_write x b (by omega) hm)

/-- `MemWrite` inside the address space keeps the canonical form. -/
theorem Memory.wf_writeLe {m : List Host.Cell} {x n : Nat} (v : Nat) (hx : x + n ≤ addressSpace)
    (hm : Memory.wf m = true) : Memory.wf (Memory.writeLe m x n v) = true :=
  Memory.wf_writeBytes _ (by simpa using hx) hm

theorem Memory.wfFrom_filter (p : Host.Cell → Bool) (m : List Host.Cell) {lo : Nat} (hm : Memory.wfFrom lo m = true) :
    Memory.wfFrom lo (m.filter p) = true := by
  induction m generalizing lo with
  | nil => rfl
  | cons c rest ih =>
    obtain ⟨a, b⟩ := c
    simp only [Memory.wfFrom, Bool.and_eq_true, decide_eq_true_eq] at hm
    rw [List.filter_cons]
    split
    · simp only [Memory.wfFrom, Bool.and_eq_true, decide_eq_true_eq]
      exact ⟨hm.1, ih hm.2⟩
    · exact Memory.wfFrom_mono (by omega) (ih hm.2)

/-- Forgetting a region keeps the canonical form. -/
theorem Memory.wf_forget {m : List Host.Cell} (lo len : Nat) (hm : Memory.wf m = true) :
    Memory.wf (Memory.forget m lo len) = true := Memory.wfFrom_filter _ m hm

/-- Memory after reset is canonical. -/
theorem Memory.wf_reset : Memory.wf State.reset.mem = true := rfl

end Sys2Proof.Machine
end

