-- ==== Sys2Proof/Laws/State.lean ====
section
/-! SUPPORT. One lemma per field per named update of the state, true by definition, so that no later proof unfolds a record
update; and how the table accessors see each update. -/

namespace Sys2Proof.Machine

/-! `setRing` -/

@[simp] theorem setRing_cfg (k i : Nat) (r : RingRec) (s : State) : (setRing k i r s).cfg = s.cfg := rfl
@[simp] theorem setRing_mode (k i : Nat) (r : RingRec) (s : State) : (setRing k i r s).mode = s.mode := rfl
@[simp] theorem setRing_cmd (k i : Nat) (r : RingRec) (s : State) : (setRing k i r s).cmd = s.cmd := rfl
@[simp] theorem setRing_arg0 (k i : Nat) (r : RingRec) (s : State) : (setRing k i r s).arg0 = s.arg0 := rfl
@[simp] theorem setRing_res0 (k i : Nat) (r : RingRec) (s : State) : (setRing k i r s).res0 = s.res0 := rfl
@[simp] theorem setRing_res1 (k i : Nat) (r : RingRec) (s : State) : (setRing k i r s).res1 = s.res1 := rfl
@[simp] theorem setRing_err (k i : Nat) (r : RingRec) (s : State) : (setRing k i r s).err = s.err := rfl
@[simp] theorem setRing_warnCnt (k i : Nat) (r : RingRec) (s : State) : (setRing k i r s).warnCnt = s.warnCnt := rfl
@[simp] theorem setRing_handlerOverrun (k i : Nat) (r : RingRec) (s : State) : (setRing k i r s).handlerOverrun = s.handlerOverrun := rfl
@[simp] theorem setRing_cmdOverrun (k i : Nat) (r : RingRec) (s : State) : (setRing k i r s).cmdOverrun = s.cmdOverrun := rfl
@[simp] theorem setRing_svcBudget (k i : Nat) (r : RingRec) (s : State) : (setRing k i r s).svcBudget = s.svcBudget := rfl
@[simp] theorem setRing_pollPeriod (k i : Nat) (r : RingRec) (s : State) : (setRing k i r s).pollPeriod = s.pollPeriod := rfl
@[simp] theorem setRing_seq (k i : Nat) (r : RingRec) (s : State) : (setRing k i r s).seq = s.seq := rfl
@[simp] theorem setRing_rings (k i : Nat) (r : RingRec) (s : State) : (setRing k i r s).rings = s.rings.setIfInBounds (ringPlace k i) r := rfl
@[simp] theorem setRing_producer (k i : Nat) (r : RingRec) (s : State) : (setRing k i r s).producer = s.producer := rfl
@[simp] theorem setRing_banks (k i : Nat) (r : RingRec) (s : State) : (setRing k i r s).banks = s.banks := rfl
@[simp] theorem setRing_scats (k i : Nat) (r : RingRec) (s : State) : (setRing k i r s).scats = s.scats := rfl
@[simp] theorem setRing_pool (k i : Nat) (r : RingRec) (s : State) : (setRing k i r s).pool = s.pool := rfl
@[simp] theorem setRing_ctxs (k i : Nat) (r : RingRec) (s : State) : (setRing k i r s).ctxs = s.ctxs := rfl
@[simp] theorem setRing_disp (k i : Nat) (r : RingRec) (s : State) : (setRing k i r s).disp = s.disp := rfl
@[simp] theorem setRing_poll (k i : Nat) (r : RingRec) (s : State) : (setRing k i r s).poll = s.poll := rfl
@[simp] theorem setRing_live (k i : Nat) (r : RingRec) (s : State) : (setRing k i r s).live = s.live := rfl
@[simp] theorem setRing_engReg (k i : Nat) (r : RingRec) (s : State) : (setRing k i r s).engReg = s.engReg := rfl
@[simp] theorem setRing_engIdle (k i : Nat) (r : RingRec) (s : State) : (setRing k i r s).engIdle = s.engIdle := rfl
@[simp] theorem setRing_hist (k i : Nat) (r : RingRec) (s : State) : (setRing k i r s).hist = s.hist := rfl
@[simp] theorem setRing_mem (k i : Nat) (r : RingRec) (s : State) : (setRing k i r s).mem = s.mem := rfl
@[simp] theorem setRing_hostData (k i : Nat) (r : RingRec) (s : State) : (setRing k i r s).hostData = s.hostData := rfl
@[simp] theorem setRing_env (k i : Nat) (r : RingRec) (s : State) : (setRing k i r s).env = s.env := rfl
@[simp] theorem setRing_bank_get (k i : Nat) (r : RingRec) (s : State) (b' : Nat) : (setRing k i r s).bank b' = s.bank b' := rfl
@[simp] theorem setRing_scat_get (k i : Nat) (r : RingRec) (s : State) (n' : Nat) : (setRing k i r s).scat n' = s.scat n' := rfl
@[simp] theorem setRing_ctx_get (k i : Nat) (r : RingRec) (s : State) (c' : Nat) : (setRing k i r s).ctx c' = s.ctx c' := rfl
@[simp] theorem setRing_busy_get (k i : Nat) (r : RingRec) (s : State)  : (setRing k i r s).busy = s.busy := rfl

/-! `setBank` -/

@[simp] theorem setBank_cfg (b : Nat) (r : Bank) (s : State) : (setBank b r s).cfg = s.cfg := rfl
@[simp] theorem setBank_mode (b : Nat) (r : Bank) (s : State) : (setBank b r s).mode = s.mode := rfl
@[simp] theorem setBank_cmd (b : Nat) (r : Bank) (s : State) : (setBank b r s).cmd = s.cmd := rfl
@[simp] theorem setBank_arg0 (b : Nat) (r : Bank) (s : State) : (setBank b r s).arg0 = s.arg0 := rfl
@[simp] theorem setBank_res0 (b : Nat) (r : Bank) (s : State) : (setBank b r s).res0 = s.res0 := rfl
@[simp] theorem setBank_res1 (b : Nat) (r : Bank) (s : State) : (setBank b r s).res1 = s.res1 := rfl
@[simp] theorem setBank_err (b : Nat) (r : Bank) (s : State) : (setBank b r s).err = s.err := rfl
@[simp] theorem setBank_warnCnt (b : Nat) (r : Bank) (s : State) : (setBank b r s).warnCnt = s.warnCnt := rfl
@[simp] theorem setBank_handlerOverrun (b : Nat) (r : Bank) (s : State) : (setBank b r s).handlerOverrun = s.handlerOverrun := rfl
@[simp] theorem setBank_cmdOverrun (b : Nat) (r : Bank) (s : State) : (setBank b r s).cmdOverrun = s.cmdOverrun := rfl
@[simp] theorem setBank_svcBudget (b : Nat) (r : Bank) (s : State) : (setBank b r s).svcBudget = s.svcBudget := rfl
@[simp] theorem setBank_pollPeriod (b : Nat) (r : Bank) (s : State) : (setBank b r s).pollPeriod = s.pollPeriod := rfl
@[simp] theorem setBank_seq (b : Nat) (r : Bank) (s : State) : (setBank b r s).seq = s.seq := rfl
@[simp] theorem setBank_rings (b : Nat) (r : Bank) (s : State) : (setBank b r s).rings = s.rings := rfl
@[simp] theorem setBank_producer (b : Nat) (r : Bank) (s : State) : (setBank b r s).producer = s.producer := rfl
@[simp] theorem setBank_banks (b : Nat) (r : Bank) (s : State) : (setBank b r s).banks = s.banks.setIfInBounds b r := rfl
@[simp] theorem setBank_scats (b : Nat) (r : Bank) (s : State) : (setBank b r s).scats = s.scats := rfl
@[simp] theorem setBank_pool (b : Nat) (r : Bank) (s : State) : (setBank b r s).pool = s.pool := rfl
@[simp] theorem setBank_ctxs (b : Nat) (r : Bank) (s : State) : (setBank b r s).ctxs = s.ctxs := rfl
@[simp] theorem setBank_disp (b : Nat) (r : Bank) (s : State) : (setBank b r s).disp = s.disp := rfl
@[simp] theorem setBank_poll (b : Nat) (r : Bank) (s : State) : (setBank b r s).poll = s.poll := rfl
@[simp] theorem setBank_live (b : Nat) (r : Bank) (s : State) : (setBank b r s).live = s.live := rfl
@[simp] theorem setBank_engReg (b : Nat) (r : Bank) (s : State) : (setBank b r s).engReg = s.engReg := rfl
@[simp] theorem setBank_engIdle (b : Nat) (r : Bank) (s : State) : (setBank b r s).engIdle = s.engIdle := rfl
@[simp] theorem setBank_hist (b : Nat) (r : Bank) (s : State) : (setBank b r s).hist = s.hist := rfl
@[simp] theorem setBank_mem (b : Nat) (r : Bank) (s : State) : (setBank b r s).mem = s.mem := rfl
@[simp] theorem setBank_hostData (b : Nat) (r : Bank) (s : State) : (setBank b r s).hostData = s.hostData := rfl
@[simp] theorem setBank_env (b : Nat) (r : Bank) (s : State) : (setBank b r s).env = s.env := rfl
@[simp] theorem setBank_ring_get (b : Nat) (r : Bank) (s : State) (k' i' : Nat) : (setBank b r s).ring k' i' = s.ring k' i' := rfl
@[simp] theorem setBank_scat_get (b : Nat) (r : Bank) (s : State) (n' : Nat) : (setBank b r s).scat n' = s.scat n' := rfl
@[simp] theorem setBank_ctx_get (b : Nat) (r : Bank) (s : State) (c' : Nat) : (setBank b r s).ctx c' = s.ctx c' := rfl
@[simp] theorem setBank_busy_get (b : Nat) (r : Bank) (s : State)  : (setBank b r s).busy = s.busy := rfl

/-! `setScat` -/

@[simp] theorem setScat_cfg (n : Nat) (r : Scatter) (s : State) : (setScat n r s).cfg = s.cfg := rfl
@[simp] theorem setScat_mode (n : Nat) (r : Scatter) (s : State) : (setScat n r s).mode = s.mode := rfl
@[simp] theorem setScat_cmd (n : Nat) (r : Scatter) (s : State) : (setScat n r s).cmd = s.cmd := rfl
@[simp] theorem setScat_arg0 (n : Nat) (r : Scatter) (s : State) : (setScat n r s).arg0 = s.arg0 := rfl
@[simp] theorem setScat_res0 (n : Nat) (r : Scatter) (s : State) : (setScat n r s).res0 = s.res0 := rfl
@[simp] theorem setScat_res1 (n : Nat) (r : Scatter) (s : State) : (setScat n r s).res1 = s.res1 := rfl
@[simp] theorem setScat_err (n : Nat) (r : Scatter) (s : State) : (setScat n r s).err = s.err := rfl
@[simp] theorem setScat_warnCnt (n : Nat) (r : Scatter) (s : State) : (setScat n r s).warnCnt = s.warnCnt := rfl
@[simp] theorem setScat_handlerOverrun (n : Nat) (r : Scatter) (s : State) : (setScat n r s).handlerOverrun = s.handlerOverrun := rfl
@[simp] theorem setScat_cmdOverrun (n : Nat) (r : Scatter) (s : State) : (setScat n r s).cmdOverrun = s.cmdOverrun := rfl
@[simp] theorem setScat_svcBudget (n : Nat) (r : Scatter) (s : State) : (setScat n r s).svcBudget = s.svcBudget := rfl
@[simp] theorem setScat_pollPeriod (n : Nat) (r : Scatter) (s : State) : (setScat n r s).pollPeriod = s.pollPeriod := rfl
@[simp] theorem setScat_seq (n : Nat) (r : Scatter) (s : State) : (setScat n r s).seq = s.seq := rfl
@[simp] theorem setScat_rings (n : Nat) (r : Scatter) (s : State) : (setScat n r s).rings = s.rings := rfl
@[simp] theorem setScat_producer (n : Nat) (r : Scatter) (s : State) : (setScat n r s).producer = s.producer := rfl
@[simp] theorem setScat_banks (n : Nat) (r : Scatter) (s : State) : (setScat n r s).banks = s.banks := rfl
@[simp] theorem setScat_scats (n : Nat) (r : Scatter) (s : State) : (setScat n r s).scats = s.scats.setIfInBounds n r := rfl
@[simp] theorem setScat_pool (n : Nat) (r : Scatter) (s : State) : (setScat n r s).pool = s.pool := rfl
@[simp] theorem setScat_ctxs (n : Nat) (r : Scatter) (s : State) : (setScat n r s).ctxs = s.ctxs := rfl
@[simp] theorem setScat_disp (n : Nat) (r : Scatter) (s : State) : (setScat n r s).disp = s.disp := rfl
@[simp] theorem setScat_poll (n : Nat) (r : Scatter) (s : State) : (setScat n r s).poll = s.poll := rfl
@[simp] theorem setScat_live (n : Nat) (r : Scatter) (s : State) : (setScat n r s).live = s.live := rfl
@[simp] theorem setScat_engReg (n : Nat) (r : Scatter) (s : State) : (setScat n r s).engReg = s.engReg := rfl
@[simp] theorem setScat_engIdle (n : Nat) (r : Scatter) (s : State) : (setScat n r s).engIdle = s.engIdle := rfl
@[simp] theorem setScat_hist (n : Nat) (r : Scatter) (s : State) : (setScat n r s).hist = s.hist := rfl
@[simp] theorem setScat_mem (n : Nat) (r : Scatter) (s : State) : (setScat n r s).mem = s.mem := rfl
@[simp] theorem setScat_hostData (n : Nat) (r : Scatter) (s : State) : (setScat n r s).hostData = s.hostData := rfl
@[simp] theorem setScat_env (n : Nat) (r : Scatter) (s : State) : (setScat n r s).env = s.env := rfl
@[simp] theorem setScat_ring_get (n : Nat) (r : Scatter) (s : State) (k' i' : Nat) : (setScat n r s).ring k' i' = s.ring k' i' := rfl
@[simp] theorem setScat_bank_get (n : Nat) (r : Scatter) (s : State) (b' : Nat) : (setScat n r s).bank b' = s.bank b' := rfl
@[simp] theorem setScat_ctx_get (n : Nat) (r : Scatter) (s : State) (c' : Nat) : (setScat n r s).ctx c' = s.ctx c' := rfl
@[simp] theorem setScat_busy_get (n : Nat) (r : Scatter) (s : State)  : (setScat n r s).busy = s.busy := rfl

/-! `setCtx` -/

@[simp] theorem setCtx_cfg (c : Nat) (x : Ctx) (s : State) : (setCtx c x s).cfg = s.cfg := rfl
@[simp] theorem setCtx_mode (c : Nat) (x : Ctx) (s : State) : (setCtx c x s).mode = s.mode := rfl
@[simp] theorem setCtx_cmd (c : Nat) (x : Ctx) (s : State) : (setCtx c x s).cmd = s.cmd := rfl
@[simp] theorem setCtx_arg0 (c : Nat) (x : Ctx) (s : State) : (setCtx c x s).arg0 = s.arg0 := rfl
@[simp] theorem setCtx_res0 (c : Nat) (x : Ctx) (s : State) : (setCtx c x s).res0 = s.res0 := rfl
@[simp] theorem setCtx_res1 (c : Nat) (x : Ctx) (s : State) : (setCtx c x s).res1 = s.res1 := rfl
@[simp] theorem setCtx_err (c : Nat) (x : Ctx) (s : State) : (setCtx c x s).err = s.err := rfl
@[simp] theorem setCtx_warnCnt (c : Nat) (x : Ctx) (s : State) : (setCtx c x s).warnCnt = s.warnCnt := rfl
@[simp] theorem setCtx_handlerOverrun (c : Nat) (x : Ctx) (s : State) : (setCtx c x s).handlerOverrun = s.handlerOverrun := rfl
@[simp] theorem setCtx_cmdOverrun (c : Nat) (x : Ctx) (s : State) : (setCtx c x s).cmdOverrun = s.cmdOverrun := rfl
@[simp] theorem setCtx_svcBudget (c : Nat) (x : Ctx) (s : State) : (setCtx c x s).svcBudget = s.svcBudget := rfl
@[simp] theorem setCtx_pollPeriod (c : Nat) (x : Ctx) (s : State) : (setCtx c x s).pollPeriod = s.pollPeriod := rfl
@[simp] theorem setCtx_seq (c : Nat) (x : Ctx) (s : State) : (setCtx c x s).seq = s.seq := rfl
@[simp] theorem setCtx_rings (c : Nat) (x : Ctx) (s : State) : (setCtx c x s).rings = s.rings := rfl
@[simp] theorem setCtx_producer (c : Nat) (x : Ctx) (s : State) : (setCtx c x s).producer = s.producer := rfl
@[simp] theorem setCtx_banks (c : Nat) (x : Ctx) (s : State) : (setCtx c x s).banks = s.banks := rfl
@[simp] theorem setCtx_scats (c : Nat) (x : Ctx) (s : State) : (setCtx c x s).scats = s.scats := rfl
@[simp] theorem setCtx_pool (c : Nat) (x : Ctx) (s : State) : (setCtx c x s).pool = s.pool := rfl
@[simp] theorem setCtx_ctxs (c : Nat) (x : Ctx) (s : State) : (setCtx c x s).ctxs = s.ctxs.setIfInBounds c x := rfl
@[simp] theorem setCtx_disp (c : Nat) (x : Ctx) (s : State) : (setCtx c x s).disp = s.disp := rfl
@[simp] theorem setCtx_poll (c : Nat) (x : Ctx) (s : State) : (setCtx c x s).poll = s.poll := rfl
@[simp] theorem setCtx_live (c : Nat) (x : Ctx) (s : State) : (setCtx c x s).live = s.live := rfl
@[simp] theorem setCtx_engReg (c : Nat) (x : Ctx) (s : State) : (setCtx c x s).engReg = s.engReg := rfl
@[simp] theorem setCtx_engIdle (c : Nat) (x : Ctx) (s : State) : (setCtx c x s).engIdle = s.engIdle := rfl
@[simp] theorem setCtx_hist (c : Nat) (x : Ctx) (s : State) : (setCtx c x s).hist = s.hist := rfl
@[simp] theorem setCtx_mem (c : Nat) (x : Ctx) (s : State) : (setCtx c x s).mem = s.mem := rfl
@[simp] theorem setCtx_hostData (c : Nat) (x : Ctx) (s : State) : (setCtx c x s).hostData = s.hostData := rfl
@[simp] theorem setCtx_env (c : Nat) (x : Ctx) (s : State) : (setCtx c x s).env = s.env := rfl
@[simp] theorem setCtx_ring_get (c : Nat) (x : Ctx) (s : State) (k' i' : Nat) : (setCtx c x s).ring k' i' = s.ring k' i' := rfl
@[simp] theorem setCtx_bank_get (c : Nat) (x : Ctx) (s : State) (b' : Nat) : (setCtx c x s).bank b' = s.bank b' := rfl
@[simp] theorem setCtx_scat_get (c : Nat) (x : Ctx) (s : State) (n' : Nat) : (setCtx c x s).scat n' = s.scat n' := rfl
@[simp] theorem setCtx_busy_get (c : Nat) (x : Ctx) (s : State)  : (setCtx c x s).busy = s.busy := rfl

/-! `goto` -/

@[simp] theorem goto_cfg (p : Pos) (s : State) : (goto p s).cfg = s.cfg := rfl
@[simp] theorem goto_mode (p : Pos) (s : State) : (goto p s).mode = s.mode := rfl
@[simp] theorem goto_cmd (p : Pos) (s : State) : (goto p s).cmd = s.cmd := rfl
@[simp] theorem goto_arg0 (p : Pos) (s : State) : (goto p s).arg0 = s.arg0 := rfl
@[simp] theorem goto_res0 (p : Pos) (s : State) : (goto p s).res0 = s.res0 := rfl
@[simp] theorem goto_res1 (p : Pos) (s : State) : (goto p s).res1 = s.res1 := rfl
@[simp] theorem goto_err (p : Pos) (s : State) : (goto p s).err = s.err := rfl
@[simp] theorem goto_warnCnt (p : Pos) (s : State) : (goto p s).warnCnt = s.warnCnt := rfl
@[simp] theorem goto_handlerOverrun (p : Pos) (s : State) : (goto p s).handlerOverrun = s.handlerOverrun := rfl
@[simp] theorem goto_cmdOverrun (p : Pos) (s : State) : (goto p s).cmdOverrun = s.cmdOverrun := rfl
@[simp] theorem goto_svcBudget (p : Pos) (s : State) : (goto p s).svcBudget = s.svcBudget := rfl
@[simp] theorem goto_pollPeriod (p : Pos) (s : State) : (goto p s).pollPeriod = s.pollPeriod := rfl
@[simp] theorem goto_seq (p : Pos) (s : State) : (goto p s).seq = { s.seq with pos := p } := rfl
@[simp] theorem goto_rings (p : Pos) (s : State) : (goto p s).rings = s.rings := rfl
@[simp] theorem goto_producer (p : Pos) (s : State) : (goto p s).producer = s.producer := rfl
@[simp] theorem goto_banks (p : Pos) (s : State) : (goto p s).banks = s.banks := rfl
@[simp] theorem goto_scats (p : Pos) (s : State) : (goto p s).scats = s.scats := rfl
@[simp] theorem goto_pool (p : Pos) (s : State) : (goto p s).pool = s.pool := rfl
@[simp] theorem goto_ctxs (p : Pos) (s : State) : (goto p s).ctxs = s.ctxs := rfl
@[simp] theorem goto_disp (p : Pos) (s : State) : (goto p s).disp = s.disp := rfl
@[simp] theorem goto_poll (p : Pos) (s : State) : (goto p s).poll = s.poll := rfl
@[simp] theorem goto_live (p : Pos) (s : State) : (goto p s).live = s.live := rfl
@[simp] theorem goto_engReg (p : Pos) (s : State) : (goto p s).engReg = s.engReg := rfl
@[simp] theorem goto_engIdle (p : Pos) (s : State) : (goto p s).engIdle = s.engIdle := rfl
@[simp] theorem goto_hist (p : Pos) (s : State) : (goto p s).hist = s.hist := rfl
@[simp] theorem goto_mem (p : Pos) (s : State) : (goto p s).mem = s.mem := rfl
@[simp] theorem goto_hostData (p : Pos) (s : State) : (goto p s).hostData = s.hostData := rfl
@[simp] theorem goto_env (p : Pos) (s : State) : (goto p s).env = s.env := rfl
@[simp] theorem goto_ring_get (p : Pos) (s : State) (k' i' : Nat) : (goto p s).ring k' i' = s.ring k' i' := rfl
@[simp] theorem goto_bank_get (p : Pos) (s : State) (b' : Nat) : (goto p s).bank b' = s.bank b' := rfl
@[simp] theorem goto_scat_get (p : Pos) (s : State) (n' : Nat) : (goto p s).scat n' = s.scat n' := rfl
@[simp] theorem goto_ctx_get (p : Pos) (s : State) (c' : Nat) : (goto p s).ctx c' = s.ctx c' := rfl

/-! `setOp` -/

@[simp] theorem setOp_cfg (o : Op) (s : State) : (setOp o s).cfg = s.cfg := rfl
@[simp] theorem setOp_mode (o : Op) (s : State) : (setOp o s).mode = s.mode := rfl
@[simp] theorem setOp_cmd (o : Op) (s : State) : (setOp o s).cmd = s.cmd := rfl
@[simp] theorem setOp_arg0 (o : Op) (s : State) : (setOp o s).arg0 = s.arg0 := rfl
@[simp] theorem setOp_res0 (o : Op) (s : State) : (setOp o s).res0 = s.res0 := rfl
@[simp] theorem setOp_res1 (o : Op) (s : State) : (setOp o s).res1 = s.res1 := rfl
@[simp] theorem setOp_err (o : Op) (s : State) : (setOp o s).err = s.err := rfl
@[simp] theorem setOp_warnCnt (o : Op) (s : State) : (setOp o s).warnCnt = s.warnCnt := rfl
@[simp] theorem setOp_handlerOverrun (o : Op) (s : State) : (setOp o s).handlerOverrun = s.handlerOverrun := rfl
@[simp] theorem setOp_cmdOverrun (o : Op) (s : State) : (setOp o s).cmdOverrun = s.cmdOverrun := rfl
@[simp] theorem setOp_svcBudget (o : Op) (s : State) : (setOp o s).svcBudget = s.svcBudget := rfl
@[simp] theorem setOp_pollPeriod (o : Op) (s : State) : (setOp o s).pollPeriod = s.pollPeriod := rfl
@[simp] theorem setOp_seq (o : Op) (s : State) : (setOp o s).seq = { s.seq with op := o } := rfl
@[simp] theorem setOp_rings (o : Op) (s : State) : (setOp o s).rings = s.rings := rfl
@[simp] theorem setOp_producer (o : Op) (s : State) : (setOp o s).producer = s.producer := rfl
@[simp] theorem setOp_banks (o : Op) (s : State) : (setOp o s).banks = s.banks := rfl
@[simp] theorem setOp_scats (o : Op) (s : State) : (setOp o s).scats = s.scats := rfl
@[simp] theorem setOp_pool (o : Op) (s : State) : (setOp o s).pool = s.pool := rfl
@[simp] theorem setOp_ctxs (o : Op) (s : State) : (setOp o s).ctxs = s.ctxs := rfl
@[simp] theorem setOp_disp (o : Op) (s : State) : (setOp o s).disp = s.disp := rfl
@[simp] theorem setOp_poll (o : Op) (s : State) : (setOp o s).poll = s.poll := rfl
@[simp] theorem setOp_live (o : Op) (s : State) : (setOp o s).live = s.live := rfl
@[simp] theorem setOp_engReg (o : Op) (s : State) : (setOp o s).engReg = s.engReg := rfl
@[simp] theorem setOp_engIdle (o : Op) (s : State) : (setOp o s).engIdle = s.engIdle := rfl
@[simp] theorem setOp_hist (o : Op) (s : State) : (setOp o s).hist = s.hist := rfl
@[simp] theorem setOp_mem (o : Op) (s : State) : (setOp o s).mem = s.mem := rfl
@[simp] theorem setOp_hostData (o : Op) (s : State) : (setOp o s).hostData = s.hostData := rfl
@[simp] theorem setOp_env (o : Op) (s : State) : (setOp o s).env = s.env := rfl
@[simp] theorem setOp_ring_get (o : Op) (s : State) (k' i' : Nat) : (setOp o s).ring k' i' = s.ring k' i' := rfl
@[simp] theorem setOp_bank_get (o : Op) (s : State) (b' : Nat) : (setOp o s).bank b' = s.bank b' := rfl
@[simp] theorem setOp_scat_get (o : Op) (s : State) (n' : Nat) : (setOp o s).scat n' = s.scat n' := rfl
@[simp] theorem setOp_ctx_get (o : Op) (s : State) (c' : Nat) : (setOp o s).ctx c' = s.ctx c' := rfl

/-! `countEntry` -/

@[simp] theorem countEntry_cfg (s : State) : (countEntry s).cfg = s.cfg := rfl
@[simp] theorem countEntry_mode (s : State) : (countEntry s).mode = s.mode := rfl
@[simp] theorem countEntry_cmd (s : State) : (countEntry s).cmd = s.cmd := rfl
@[simp] theorem countEntry_arg0 (s : State) : (countEntry s).arg0 = s.arg0 := rfl
@[simp] theorem countEntry_res0 (s : State) : (countEntry s).res0 = s.res0 := rfl
@[simp] theorem countEntry_res1 (s : State) : (countEntry s).res1 = s.res1 := rfl
@[simp] theorem countEntry_err (s : State) : (countEntry s).err = s.err := rfl
@[simp] theorem countEntry_warnCnt (s : State) : (countEntry s).warnCnt = s.warnCnt := rfl
@[simp] theorem countEntry_handlerOverrun (s : State) : (countEntry s).handlerOverrun = s.handlerOverrun := rfl
@[simp] theorem countEntry_cmdOverrun (s : State) : (countEntry s).cmdOverrun = s.cmdOverrun := rfl
@[simp] theorem countEntry_svcBudget (s : State) : (countEntry s).svcBudget = s.svcBudget := rfl
@[simp] theorem countEntry_pollPeriod (s : State) : (countEntry s).pollPeriod = s.pollPeriod := rfl
@[simp] theorem countEntry_seq (s : State) : (countEntry s).seq = { s.seq with cursor := s.seq.cursor + 1 } := rfl
@[simp] theorem countEntry_rings (s : State) : (countEntry s).rings = s.rings := rfl
@[simp] theorem countEntry_producer (s : State) : (countEntry s).producer = s.producer := rfl
@[simp] theorem countEntry_banks (s : State) : (countEntry s).banks = s.banks := rfl
@[simp] theorem countEntry_scats (s : State) : (countEntry s).scats = s.scats := rfl
@[simp] theorem countEntry_pool (s : State) : (countEntry s).pool = s.pool := rfl
@[simp] theorem countEntry_ctxs (s : State) : (countEntry s).ctxs = s.ctxs := rfl
@[simp] theorem countEntry_disp (s : State) : (countEntry s).disp = s.disp := rfl
@[simp] theorem countEntry_poll (s : State) : (countEntry s).poll = s.poll := rfl
@[simp] theorem countEntry_live (s : State) : (countEntry s).live = s.live := rfl
@[simp] theorem countEntry_engReg (s : State) : (countEntry s).engReg = s.engReg := rfl
@[simp] theorem countEntry_engIdle (s : State) : (countEntry s).engIdle = s.engIdle := rfl
@[simp] theorem countEntry_hist (s : State) : (countEntry s).hist = s.hist := rfl
@[simp] theorem countEntry_mem (s : State) : (countEntry s).mem = s.mem := rfl
@[simp] theorem countEntry_hostData (s : State) : (countEntry s).hostData = s.hostData := rfl
@[simp] theorem countEntry_env (s : State) : (countEntry s).env = s.env := rfl
@[simp] theorem countEntry_ring_get (s : State) (k' i' : Nat) : (countEntry s).ring k' i' = s.ring k' i' := rfl
@[simp] theorem countEntry_bank_get (s : State) (b' : Nat) : (countEntry s).bank b' = s.bank b' := rfl
@[simp] theorem countEntry_scat_get (s : State) (n' : Nat) : (countEntry s).scat n' = s.scat n' := rfl
@[simp] theorem countEntry_ctx_get (s : State) (c' : Nat) : (countEntry s).ctx c' = s.ctx c' := rfl

/-! `accept` -/

@[simp] theorem accept_cfg (w : Word) (d : Option Instr) (s : State) : (accept w d s).cfg = s.cfg := rfl
@[simp] theorem accept_mode (w : Word) (d : Option Instr) (s : State) : (accept w d s).mode = s.mode := rfl
@[simp] theorem accept_cmd (w : Word) (d : Option Instr) (s : State) : (accept w d s).cmd = w := rfl
@[simp] theorem accept_arg0 (w : Word) (d : Option Instr) (s : State) : (accept w d s).arg0 = s.arg0 := rfl
@[simp] theorem accept_res0 (w : Word) (d : Option Instr) (s : State) : (accept w d s).res0 = s.res0 := rfl
@[simp] theorem accept_res1 (w : Word) (d : Option Instr) (s : State) : (accept w d s).res1 = s.res1 := rfl
@[simp] theorem accept_err (w : Word) (d : Option Instr) (s : State) : (accept w d s).err = s.err := rfl
@[simp] theorem accept_warnCnt (w : Word) (d : Option Instr) (s : State) : (accept w d s).warnCnt = s.warnCnt := rfl
@[simp] theorem accept_handlerOverrun (w : Word) (d : Option Instr) (s : State) : (accept w d s).handlerOverrun = s.handlerOverrun := rfl
@[simp] theorem accept_cmdOverrun (w : Word) (d : Option Instr) (s : State) : (accept w d s).cmdOverrun = s.cmdOverrun := rfl
@[simp] theorem accept_svcBudget (w : Word) (d : Option Instr) (s : State) : (accept w d s).svcBudget = s.svcBudget := rfl
@[simp] theorem accept_pollPeriod (w : Word) (d : Option Instr) (s : State) : (accept w d s).pollPeriod = s.pollPeriod := rfl
@[simp] theorem accept_seq (w : Word) (d : Option Instr) (s : State) : (accept w d s).seq = { op := (d.map opOf).getD .none, arg := s.arg0, pos := .start } := rfl
@[simp] theorem accept_rings (w : Word) (d : Option Instr) (s : State) : (accept w d s).rings = s.rings := rfl
@[simp] theorem accept_producer (w : Word) (d : Option Instr) (s : State) : (accept w d s).producer = s.producer := rfl
@[simp] theorem accept_banks (w : Word) (d : Option Instr) (s : State) : (accept w d s).banks = s.banks := rfl
@[simp] theorem accept_scats (w : Word) (d : Option Instr) (s : State) : (accept w d s).scats = s.scats := rfl
@[simp] theorem accept_pool (w : Word) (d : Option Instr) (s : State) : (accept w d s).pool = s.pool := rfl
@[simp] theorem accept_ctxs (w : Word) (d : Option Instr) (s : State) : (accept w d s).ctxs = s.ctxs := rfl
@[simp] theorem accept_disp (w : Word) (d : Option Instr) (s : State) : (accept w d s).disp = s.disp := rfl
@[simp] theorem accept_poll (w : Word) (d : Option Instr) (s : State) : (accept w d s).poll = s.poll := rfl
@[simp] theorem accept_live (w : Word) (d : Option Instr) (s : State) : (accept w d s).live = s.live := rfl
@[simp] theorem accept_engReg (w : Word) (d : Option Instr) (s : State) : (accept w d s).engReg = s.engReg := rfl
@[simp] theorem accept_engIdle (w : Word) (d : Option Instr) (s : State) : (accept w d s).engIdle = s.engIdle := rfl
@[simp] theorem accept_hist (w : Word) (d : Option Instr) (s : State) : (accept w d s).hist = s.hist := rfl
@[simp] theorem accept_mem (w : Word) (d : Option Instr) (s : State) : (accept w d s).mem = s.mem := rfl
@[simp] theorem accept_hostData (w : Word) (d : Option Instr) (s : State) : (accept w d s).hostData = s.hostData := rfl
@[simp] theorem accept_env (w : Word) (d : Option Instr) (s : State) : (accept w d s).env = s.env := rfl
@[simp] theorem accept_ring_get (w : Word) (d : Option Instr) (s : State) (k' i' : Nat) : (accept w d s).ring k' i' = s.ring k' i' := rfl
@[simp] theorem accept_bank_get (w : Word) (d : Option Instr) (s : State) (b' : Nat) : (accept w d s).bank b' = s.bank b' := rfl
@[simp] theorem accept_scat_get (w : Word) (d : Option Instr) (s : State) (n' : Nat) : (accept w d s).scat n' = s.scat n' := rfl
@[simp] theorem accept_ctx_get (w : Word) (d : Option Instr) (s : State) (c' : Nat) : (accept w d s).ctx c' = s.ctx c' := rfl

/-! `complete` -/

@[simp] theorem complete_cfg (e : Err) (r0 r1 : Word) (s : State) : (complete e r0 r1 s).cfg = s.cfg := rfl
@[simp] theorem complete_mode (e : Err) (r0 r1 : Word) (s : State) : (complete e r0 r1 s).mode = s.mode := rfl
@[simp] theorem complete_cmd (e : Err) (r0 r1 : Word) (s : State) : (complete e r0 r1 s).cmd = s.cmd := rfl
@[simp] theorem complete_arg0 (e : Err) (r0 r1 : Word) (s : State) : (complete e r0 r1 s).arg0 = s.arg0 := rfl
@[simp] theorem complete_res0 (e : Err) (r0 r1 : Word) (s : State) : (complete e r0 r1 s).res0 = r0 := rfl
@[simp] theorem complete_res1 (e : Err) (r0 r1 : Word) (s : State) : (complete e r0 r1 s).res1 = r1 := rfl
@[simp] theorem complete_err (e : Err) (r0 r1 : Word) (s : State) : (complete e r0 r1 s).err = e := rfl
@[simp] theorem complete_warnCnt (e : Err) (r0 r1 : Word) (s : State) : (complete e r0 r1 s).warnCnt = s.warnCnt := rfl
@[simp] theorem complete_handlerOverrun (e : Err) (r0 r1 : Word) (s : State) : (complete e r0 r1 s).handlerOverrun = s.handlerOverrun := rfl
@[simp] theorem complete_cmdOverrun (e : Err) (r0 r1 : Word) (s : State) : (complete e r0 r1 s).cmdOverrun = s.cmdOverrun := rfl
@[simp] theorem complete_svcBudget (e : Err) (r0 r1 : Word) (s : State) : (complete e r0 r1 s).svcBudget = s.svcBudget := rfl
@[simp] theorem complete_pollPeriod (e : Err) (r0 r1 : Word) (s : State) : (complete e r0 r1 s).pollPeriod = s.pollPeriod := rfl
@[simp] theorem complete_seq (e : Err) (r0 r1 : Word) (s : State) : (complete e r0 r1 s).seq = {} := rfl
@[simp] theorem complete_rings (e : Err) (r0 r1 : Word) (s : State) : (complete e r0 r1 s).rings = s.rings := rfl
@[simp] theorem complete_producer (e : Err) (r0 r1 : Word) (s : State) : (complete e r0 r1 s).producer = s.producer := rfl
@[simp] theorem complete_banks (e : Err) (r0 r1 : Word) (s : State) : (complete e r0 r1 s).banks = s.banks := rfl
@[simp] theorem complete_scats (e : Err) (r0 r1 : Word) (s : State) : (complete e r0 r1 s).scats = s.scats := rfl
@[simp] theorem complete_pool (e : Err) (r0 r1 : Word) (s : State) : (complete e r0 r1 s).pool = s.pool := rfl
@[simp] theorem complete_ctxs (e : Err) (r0 r1 : Word) (s : State) : (complete e r0 r1 s).ctxs = s.ctxs := rfl
@[simp] theorem complete_disp (e : Err) (r0 r1 : Word) (s : State) : (complete e r0 r1 s).disp = s.disp := rfl
@[simp] theorem complete_poll (e : Err) (r0 r1 : Word) (s : State) : (complete e r0 r1 s).poll = s.poll := rfl
@[simp] theorem complete_live (e : Err) (r0 r1 : Word) (s : State) : (complete e r0 r1 s).live = s.live := rfl
@[simp] theorem complete_engReg (e : Err) (r0 r1 : Word) (s : State) : (complete e r0 r1 s).engReg = s.engReg := rfl
@[simp] theorem complete_engIdle (e : Err) (r0 r1 : Word) (s : State) : (complete e r0 r1 s).engIdle = s.engIdle := rfl
@[simp] theorem complete_hist (e : Err) (r0 r1 : Word) (s : State) : (complete e r0 r1 s).hist = s.hist := rfl
@[simp] theorem complete_mem (e : Err) (r0 r1 : Word) (s : State) : (complete e r0 r1 s).mem = s.mem := rfl
@[simp] theorem complete_hostData (e : Err) (r0 r1 : Word) (s : State) : (complete e r0 r1 s).hostData = s.hostData := rfl
@[simp] theorem complete_env (e : Err) (r0 r1 : Word) (s : State) : (complete e r0 r1 s).env = s.env := rfl
@[simp] theorem complete_ring_get (e : Err) (r0 r1 : Word) (s : State) (k' i' : Nat) : (complete e r0 r1 s).ring k' i' = s.ring k' i' := rfl
@[simp] theorem complete_bank_get (e : Err) (r0 r1 : Word) (s : State) (b' : Nat) : (complete e r0 r1 s).bank b' = s.bank b' := rfl
@[simp] theorem complete_scat_get (e : Err) (r0 r1 : Word) (s : State) (n' : Nat) : (complete e r0 r1 s).scat n' = s.scat n' := rfl
@[simp] theorem complete_ctx_get (e : Err) (r0 r1 : Word) (s : State) (c' : Nat) : (complete e r0 r1 s).ctx c' = s.ctx c' := rfl

/-! `record` -/

@[simp] theorem record_cfg (a : Agent) (o : PortOp) (s : State) : (record a o s).cfg = s.cfg := rfl
@[simp] theorem record_mode (a : Agent) (o : PortOp) (s : State) : (record a o s).mode = s.mode := rfl
@[simp] theorem record_cmd (a : Agent) (o : PortOp) (s : State) : (record a o s).cmd = s.cmd := rfl
@[simp] theorem record_arg0 (a : Agent) (o : PortOp) (s : State) : (record a o s).arg0 = s.arg0 := rfl
@[simp] theorem record_res0 (a : Agent) (o : PortOp) (s : State) : (record a o s).res0 = s.res0 := rfl
@[simp] theorem record_res1 (a : Agent) (o : PortOp) (s : State) : (record a o s).res1 = s.res1 := rfl
@[simp] theorem record_err (a : Agent) (o : PortOp) (s : State) : (record a o s).err = s.err := rfl
@[simp] theorem record_warnCnt (a : Agent) (o : PortOp) (s : State) : (record a o s).warnCnt = s.warnCnt := rfl
@[simp] theorem record_handlerOverrun (a : Agent) (o : PortOp) (s : State) : (record a o s).handlerOverrun = s.handlerOverrun := rfl
@[simp] theorem record_cmdOverrun (a : Agent) (o : PortOp) (s : State) : (record a o s).cmdOverrun = s.cmdOverrun := rfl
@[simp] theorem record_svcBudget (a : Agent) (o : PortOp) (s : State) : (record a o s).svcBudget = s.svcBudget := rfl
@[simp] theorem record_pollPeriod (a : Agent) (o : PortOp) (s : State) : (record a o s).pollPeriod = s.pollPeriod := rfl
@[simp] theorem record_seq (a : Agent) (o : PortOp) (s : State) : (record a o s).seq = s.seq := rfl
@[simp] theorem record_rings (a : Agent) (o : PortOp) (s : State) : (record a o s).rings = s.rings := rfl
@[simp] theorem record_producer (a : Agent) (o : PortOp) (s : State) : (record a o s).producer = s.producer := rfl
@[simp] theorem record_banks (a : Agent) (o : PortOp) (s : State) : (record a o s).banks = s.banks := rfl
@[simp] theorem record_scats (a : Agent) (o : PortOp) (s : State) : (record a o s).scats = s.scats := rfl
@[simp] theorem record_pool (a : Agent) (o : PortOp) (s : State) : (record a o s).pool = s.pool := rfl
@[simp] theorem record_ctxs (a : Agent) (o : PortOp) (s : State) : (record a o s).ctxs = s.ctxs := rfl
@[simp] theorem record_disp (a : Agent) (o : PortOp) (s : State) : (record a o s).disp = s.disp := rfl
@[simp] theorem record_poll (a : Agent) (o : PortOp) (s : State) : (record a o s).poll = s.poll := rfl
@[simp] theorem record_live (a : Agent) (o : PortOp) (s : State) : (record a o s).live = s.live := rfl
@[simp] theorem record_engReg (a : Agent) (o : PortOp) (s : State) : (record a o s).engReg = s.engReg := rfl
@[simp] theorem record_engIdle (a : Agent) (o : PortOp) (s : State) : (record a o s).engIdle = s.engIdle := rfl
@[simp] theorem record_hist (a : Agent) (o : PortOp) (s : State) : (record a o s).hist = s.hist ++ [⟨a, o⟩] := rfl
@[simp] theorem record_mem (a : Agent) (o : PortOp) (s : State) : (record a o s).mem = s.mem := rfl
@[simp] theorem record_hostData (a : Agent) (o : PortOp) (s : State) : (record a o s).hostData = s.hostData := rfl
@[simp] theorem record_env (a : Agent) (o : PortOp) (s : State) : (record a o s).env = s.env := rfl
@[simp] theorem record_ring_get (a : Agent) (o : PortOp) (s : State) (k' i' : Nat) : (record a o s).ring k' i' = s.ring k' i' := rfl
@[simp] theorem record_bank_get (a : Agent) (o : PortOp) (s : State) (b' : Nat) : (record a o s).bank b' = s.bank b' := rfl
@[simp] theorem record_scat_get (a : Agent) (o : PortOp) (s : State) (n' : Nat) : (record a o s).scat n' = s.scat n' := rfl
@[simp] theorem record_ctx_get (a : Agent) (o : PortOp) (s : State) (c' : Nat) : (record a o s).ctx c' = s.ctx c' := rfl
@[simp] theorem record_busy_get (a : Agent) (o : PortOp) (s : State)  : (record a o s).busy = s.busy := rfl

/-! `drawOne` -/

@[simp] theorem drawOne_cfg (s : State) : (drawOne s).cfg = s.cfg := rfl
@[simp] theorem drawOne_mode (s : State) : (drawOne s).mode = s.mode := rfl
@[simp] theorem drawOne_cmd (s : State) : (drawOne s).cmd = s.cmd := rfl
@[simp] theorem drawOne_arg0 (s : State) : (drawOne s).arg0 = s.arg0 := rfl
@[simp] theorem drawOne_res0 (s : State) : (drawOne s).res0 = s.res0 := rfl
@[simp] theorem drawOne_res1 (s : State) : (drawOne s).res1 = s.res1 := rfl
@[simp] theorem drawOne_err (s : State) : (drawOne s).err = s.err := rfl
@[simp] theorem drawOne_warnCnt (s : State) : (drawOne s).warnCnt = s.warnCnt := rfl
@[simp] theorem drawOne_handlerOverrun (s : State) : (drawOne s).handlerOverrun = s.handlerOverrun := rfl
@[simp] theorem drawOne_cmdOverrun (s : State) : (drawOne s).cmdOverrun = s.cmdOverrun := rfl
@[simp] theorem drawOne_svcBudget (s : State) : (drawOne s).svcBudget = s.svcBudget := rfl
@[simp] theorem drawOne_pollPeriod (s : State) : (drawOne s).pollPeriod = s.pollPeriod := rfl
@[simp] theorem drawOne_seq (s : State) : (drawOne s).seq = s.seq := rfl
@[simp] theorem drawOne_rings (s : State) : (drawOne s).rings = s.rings := rfl
@[simp] theorem drawOne_producer (s : State) : (drawOne s).producer = s.producer := rfl
@[simp] theorem drawOne_banks (s : State) : (drawOne s).banks = s.banks := rfl
@[simp] theorem drawOne_scats (s : State) : (drawOne s).scats = s.scats := rfl
@[simp] theorem drawOne_pool (s : State) : (drawOne s).pool = s.pool := rfl
@[simp] theorem drawOne_ctxs (s : State) : (drawOne s).ctxs = s.ctxs := rfl
@[simp] theorem drawOne_disp (s : State) : (drawOne s).disp = s.disp := rfl
@[simp] theorem drawOne_poll (s : State) : (drawOne s).poll = s.poll := rfl
@[simp] theorem drawOne_live (s : State) : (drawOne s).live = s.live := rfl
@[simp] theorem drawOne_engReg (s : State) : (drawOne s).engReg = s.engReg := rfl
@[simp] theorem drawOne_engIdle (s : State) : (drawOne s).engIdle = s.engIdle := rfl
@[simp] theorem drawOne_hist (s : State) : (drawOne s).hist = s.hist := rfl
@[simp] theorem drawOne_mem (s : State) : (drawOne s).mem = s.mem := rfl
@[simp] theorem drawOne_hostData (s : State) : (drawOne s).hostData = s.hostData := rfl
@[simp] theorem drawOne_env (s : State) : (drawOne s).env = { s.env with drawn := s.env.drawn + 1 } := rfl
@[simp] theorem drawOne_ring_get (s : State) (k' i' : Nat) : (drawOne s).ring k' i' = s.ring k' i' := rfl
@[simp] theorem drawOne_bank_get (s : State) (b' : Nat) : (drawOne s).bank b' = s.bank b' := rfl
@[simp] theorem drawOne_scat_get (s : State) (n' : Nat) : (drawOne s).scat n' = s.scat n' := rfl
@[simp] theorem drawOne_ctx_get (s : State) (c' : Nat) : (drawOne s).ctx c' = s.ctx c' := rfl
@[simp] theorem drawOne_busy_get (s : State)  : (drawOne s).busy = s.busy := rfl

/-! `setRef` -/

@[simp] theorem setRef_cfg (r : RefEnv) (s : State) : (setRef r s).cfg = s.cfg := rfl
@[simp] theorem setRef_mode (r : RefEnv) (s : State) : (setRef r s).mode = s.mode := rfl
@[simp] theorem setRef_cmd (r : RefEnv) (s : State) : (setRef r s).cmd = s.cmd := rfl
@[simp] theorem setRef_arg0 (r : RefEnv) (s : State) : (setRef r s).arg0 = s.arg0 := rfl
@[simp] theorem setRef_res0 (r : RefEnv) (s : State) : (setRef r s).res0 = s.res0 := rfl
@[simp] theorem setRef_res1 (r : RefEnv) (s : State) : (setRef r s).res1 = s.res1 := rfl
@[simp] theorem setRef_err (r : RefEnv) (s : State) : (setRef r s).err = s.err := rfl
@[simp] theorem setRef_warnCnt (r : RefEnv) (s : State) : (setRef r s).warnCnt = s.warnCnt := rfl
@[simp] theorem setRef_handlerOverrun (r : RefEnv) (s : State) : (setRef r s).handlerOverrun = s.handlerOverrun := rfl
@[simp] theorem setRef_cmdOverrun (r : RefEnv) (s : State) : (setRef r s).cmdOverrun = s.cmdOverrun := rfl
@[simp] theorem setRef_svcBudget (r : RefEnv) (s : State) : (setRef r s).svcBudget = s.svcBudget := rfl
@[simp] theorem setRef_pollPeriod (r : RefEnv) (s : State) : (setRef r s).pollPeriod = s.pollPeriod := rfl
@[simp] theorem setRef_seq (r : RefEnv) (s : State) : (setRef r s).seq = s.seq := rfl
@[simp] theorem setRef_rings (r : RefEnv) (s : State) : (setRef r s).rings = s.rings := rfl
@[simp] theorem setRef_producer (r : RefEnv) (s : State) : (setRef r s).producer = s.producer := rfl
@[simp] theorem setRef_banks (r : RefEnv) (s : State) : (setRef r s).banks = s.banks := rfl
@[simp] theorem setRef_scats (r : RefEnv) (s : State) : (setRef r s).scats = s.scats := rfl
@[simp] theorem setRef_pool (r : RefEnv) (s : State) : (setRef r s).pool = s.pool := rfl
@[simp] theorem setRef_ctxs (r : RefEnv) (s : State) : (setRef r s).ctxs = s.ctxs := rfl
@[simp] theorem setRef_disp (r : RefEnv) (s : State) : (setRef r s).disp = s.disp := rfl
@[simp] theorem setRef_poll (r : RefEnv) (s : State) : (setRef r s).poll = s.poll := rfl
@[simp] theorem setRef_live (r : RefEnv) (s : State) : (setRef r s).live = s.live := rfl
@[simp] theorem setRef_engReg (r : RefEnv) (s : State) : (setRef r s).engReg = s.engReg := rfl
@[simp] theorem setRef_engIdle (r : RefEnv) (s : State) : (setRef r s).engIdle = s.engIdle := rfl
@[simp] theorem setRef_hist (r : RefEnv) (s : State) : (setRef r s).hist = s.hist := rfl
@[simp] theorem setRef_mem (r : RefEnv) (s : State) : (setRef r s).mem = s.mem := rfl
@[simp] theorem setRef_hostData (r : RefEnv) (s : State) : (setRef r s).hostData = s.hostData := rfl
@[simp] theorem setRef_env (r : RefEnv) (s : State) : (setRef r s).env = { s.env with reference := some r } := rfl
@[simp] theorem setRef_ring_get (r : RefEnv) (s : State) (k' i' : Nat) : (setRef r s).ring k' i' = s.ring k' i' := rfl
@[simp] theorem setRef_bank_get (r : RefEnv) (s : State) (b' : Nat) : (setRef r s).bank b' = s.bank b' := rfl
@[simp] theorem setRef_scat_get (r : RefEnv) (s : State) (n' : Nat) : (setRef r s).scat n' = s.scat n' := rfl
@[simp] theorem setRef_ctx_get (r : RefEnv) (s : State) (c' : Nat) : (setRef r s).ctx c' = s.ctx c' := rfl
@[simp] theorem setRef_busy_get (r : RefEnv) (s : State)  : (setRef r s).busy = s.busy := rfl

/-! `warn` -/

@[simp] theorem warn_cfg (s : State) : (warn s).cfg = s.cfg := rfl
@[simp] theorem warn_mode (s : State) : (warn s).mode = s.mode := rfl
@[simp] theorem warn_cmd (s : State) : (warn s).cmd = s.cmd := rfl
@[simp] theorem warn_arg0 (s : State) : (warn s).arg0 = s.arg0 := rfl
@[simp] theorem warn_res0 (s : State) : (warn s).res0 = s.res0 := rfl
@[simp] theorem warn_res1 (s : State) : (warn s).res1 = s.res1 := rfl
@[simp] theorem warn_err (s : State) : (warn s).err = s.err := rfl
@[simp] theorem warn_warnCnt (s : State) : (warn s).warnCnt = if s.warnCnt = 0xFFFFFFFF then s.warnCnt else s.warnCnt + 1 := rfl
@[simp] theorem warn_handlerOverrun (s : State) : (warn s).handlerOverrun = s.handlerOverrun := rfl
@[simp] theorem warn_cmdOverrun (s : State) : (warn s).cmdOverrun = s.cmdOverrun := rfl
@[simp] theorem warn_svcBudget (s : State) : (warn s).svcBudget = s.svcBudget := rfl
@[simp] theorem warn_pollPeriod (s : State) : (warn s).pollPeriod = s.pollPeriod := rfl
@[simp] theorem warn_seq (s : State) : (warn s).seq = s.seq := rfl
@[simp] theorem warn_rings (s : State) : (warn s).rings = s.rings := rfl
@[simp] theorem warn_producer (s : State) : (warn s).producer = s.producer := rfl
@[simp] theorem warn_banks (s : State) : (warn s).banks = s.banks := rfl
@[simp] theorem warn_scats (s : State) : (warn s).scats = s.scats := rfl
@[simp] theorem warn_pool (s : State) : (warn s).pool = s.pool := rfl
@[simp] theorem warn_ctxs (s : State) : (warn s).ctxs = s.ctxs := rfl
@[simp] theorem warn_disp (s : State) : (warn s).disp = s.disp := rfl
@[simp] theorem warn_poll (s : State) : (warn s).poll = s.poll := rfl
@[simp] theorem warn_live (s : State) : (warn s).live = s.live := rfl
@[simp] theorem warn_engReg (s : State) : (warn s).engReg = s.engReg := rfl
@[simp] theorem warn_engIdle (s : State) : (warn s).engIdle = s.engIdle := rfl
@[simp] theorem warn_hist (s : State) : (warn s).hist = s.hist := rfl
@[simp] theorem warn_mem (s : State) : (warn s).mem = s.mem := rfl
@[simp] theorem warn_hostData (s : State) : (warn s).hostData = s.hostData := rfl
@[simp] theorem warn_env (s : State) : (warn s).env = s.env := rfl
@[simp] theorem warn_ring_get (s : State) (k' i' : Nat) : (warn s).ring k' i' = s.ring k' i' := rfl
@[simp] theorem warn_bank_get (s : State) (b' : Nat) : (warn s).bank b' = s.bank b' := rfl
@[simp] theorem warn_scat_get (s : State) (n' : Nat) : (warn s).scat n' = s.scat n' := rfl
@[simp] theorem warn_ctx_get (s : State) (c' : Nat) : (warn s).ctx c' = s.ctx c' := rfl
@[simp] theorem warn_busy_get (s : State)  : (warn s).busy = s.busy := rfl

/-! `raiseHandlerOverrun` -/

@[simp] theorem raiseHandlerOverrun_cfg (s : State) : (raiseHandlerOverrun s).cfg = s.cfg := rfl
@[simp] theorem raiseHandlerOverrun_mode (s : State) : (raiseHandlerOverrun s).mode = s.mode := rfl
@[simp] theorem raiseHandlerOverrun_cmd (s : State) : (raiseHandlerOverrun s).cmd = s.cmd := rfl
@[simp] theorem raiseHandlerOverrun_arg0 (s : State) : (raiseHandlerOverrun s).arg0 = s.arg0 := rfl
@[simp] theorem raiseHandlerOverrun_res0 (s : State) : (raiseHandlerOverrun s).res0 = s.res0 := rfl
@[simp] theorem raiseHandlerOverrun_res1 (s : State) : (raiseHandlerOverrun s).res1 = s.res1 := rfl
@[simp] theorem raiseHandlerOverrun_err (s : State) : (raiseHandlerOverrun s).err = s.err := rfl
@[simp] theorem raiseHandlerOverrun_warnCnt (s : State) : (raiseHandlerOverrun s).warnCnt = s.warnCnt := rfl
@[simp] theorem raiseHandlerOverrun_handlerOverrun (s : State) : (raiseHandlerOverrun s).handlerOverrun = true := rfl
@[simp] theorem raiseHandlerOverrun_cmdOverrun (s : State) : (raiseHandlerOverrun s).cmdOverrun = s.cmdOverrun := rfl
@[simp] theorem raiseHandlerOverrun_svcBudget (s : State) : (raiseHandlerOverrun s).svcBudget = s.svcBudget := rfl
@[simp] theorem raiseHandlerOverrun_pollPeriod (s : State) : (raiseHandlerOverrun s).pollPeriod = s.pollPeriod := rfl
@[simp] theorem raiseHandlerOverrun_seq (s : State) : (raiseHandlerOverrun s).seq = s.seq := rfl
@[simp] theorem raiseHandlerOverrun_rings (s : State) : (raiseHandlerOverrun s).rings = s.rings := rfl
@[simp] theorem raiseHandlerOverrun_producer (s : State) : (raiseHandlerOverrun s).producer = s.producer := rfl
@[simp] theorem raiseHandlerOverrun_banks (s : State) : (raiseHandlerOverrun s).banks = s.banks := rfl
@[simp] theorem raiseHandlerOverrun_scats (s : State) : (raiseHandlerOverrun s).scats = s.scats := rfl
@[simp] theorem raiseHandlerOverrun_pool (s : State) : (raiseHandlerOverrun s).pool = s.pool := rfl
@[simp] theorem raiseHandlerOverrun_ctxs (s : State) : (raiseHandlerOverrun s).ctxs = s.ctxs := rfl
@[simp] theorem raiseHandlerOverrun_disp (s : State) : (raiseHandlerOverrun s).disp = s.disp := rfl
@[simp] theorem raiseHandlerOverrun_poll (s : State) : (raiseHandlerOverrun s).poll = s.poll := rfl
@[simp] theorem raiseHandlerOverrun_live (s : State) : (raiseHandlerOverrun s).live = s.live := rfl
@[simp] theorem raiseHandlerOverrun_engReg (s : State) : (raiseHandlerOverrun s).engReg = s.engReg := rfl
@[simp] theorem raiseHandlerOverrun_engIdle (s : State) : (raiseHandlerOverrun s).engIdle = s.engIdle := rfl
@[simp] theorem raiseHandlerOverrun_hist (s : State) : (raiseHandlerOverrun s).hist = s.hist := rfl
@[simp] theorem raiseHandlerOverrun_mem (s : State) : (raiseHandlerOverrun s).mem = s.mem := rfl
@[simp] theorem raiseHandlerOverrun_hostData (s : State) : (raiseHandlerOverrun s).hostData = s.hostData := rfl
@[simp] theorem raiseHandlerOverrun_env (s : State) : (raiseHandlerOverrun s).env = s.env := rfl
@[simp] theorem raiseHandlerOverrun_ring_get (s : State) (k' i' : Nat) : (raiseHandlerOverrun s).ring k' i' = s.ring k' i' := rfl
@[simp] theorem raiseHandlerOverrun_bank_get (s : State) (b' : Nat) : (raiseHandlerOverrun s).bank b' = s.bank b' := rfl
@[simp] theorem raiseHandlerOverrun_scat_get (s : State) (n' : Nat) : (raiseHandlerOverrun s).scat n' = s.scat n' := rfl
@[simp] theorem raiseHandlerOverrun_ctx_get (s : State) (c' : Nat) : (raiseHandlerOverrun s).ctx c' = s.ctx c' := rfl
@[simp] theorem raiseHandlerOverrun_busy_get (s : State)  : (raiseHandlerOverrun s).busy = s.busy := rfl

/-! `raiseCmdOverrun` -/

@[simp] theorem raiseCmdOverrun_cfg (s : State) : (raiseCmdOverrun s).cfg = s.cfg := rfl
@[simp] theorem raiseCmdOverrun_mode (s : State) : (raiseCmdOverrun s).mode = s.mode := rfl
@[simp] theorem raiseCmdOverrun_cmd (s : State) : (raiseCmdOverrun s).cmd = s.cmd := rfl
@[simp] theorem raiseCmdOverrun_arg0 (s : State) : (raiseCmdOverrun s).arg0 = s.arg0 := rfl
@[simp] theorem raiseCmdOverrun_res0 (s : State) : (raiseCmdOverrun s).res0 = s.res0 := rfl
@[simp] theorem raiseCmdOverrun_res1 (s : State) : (raiseCmdOverrun s).res1 = s.res1 := rfl
@[simp] theorem raiseCmdOverrun_err (s : State) : (raiseCmdOverrun s).err = s.err := rfl
@[simp] theorem raiseCmdOverrun_warnCnt (s : State) : (raiseCmdOverrun s).warnCnt = s.warnCnt := rfl
@[simp] theorem raiseCmdOverrun_handlerOverrun (s : State) : (raiseCmdOverrun s).handlerOverrun = s.handlerOverrun := rfl
@[simp] theorem raiseCmdOverrun_cmdOverrun (s : State) : (raiseCmdOverrun s).cmdOverrun = true := rfl
@[simp] theorem raiseCmdOverrun_svcBudget (s : State) : (raiseCmdOverrun s).svcBudget = s.svcBudget := rfl
@[simp] theorem raiseCmdOverrun_pollPeriod (s : State) : (raiseCmdOverrun s).pollPeriod = s.pollPeriod := rfl
@[simp] theorem raiseCmdOverrun_seq (s : State) : (raiseCmdOverrun s).seq = s.seq := rfl
@[simp] theorem raiseCmdOverrun_rings (s : State) : (raiseCmdOverrun s).rings = s.rings := rfl
@[simp] theorem raiseCmdOverrun_producer (s : State) : (raiseCmdOverrun s).producer = s.producer := rfl
@[simp] theorem raiseCmdOverrun_banks (s : State) : (raiseCmdOverrun s).banks = s.banks := rfl
@[simp] theorem raiseCmdOverrun_scats (s : State) : (raiseCmdOverrun s).scats = s.scats := rfl
@[simp] theorem raiseCmdOverrun_pool (s : State) : (raiseCmdOverrun s).pool = s.pool := rfl
@[simp] theorem raiseCmdOverrun_ctxs (s : State) : (raiseCmdOverrun s).ctxs = s.ctxs := rfl
@[simp] theorem raiseCmdOverrun_disp (s : State) : (raiseCmdOverrun s).disp = s.disp := rfl
@[simp] theorem raiseCmdOverrun_poll (s : State) : (raiseCmdOverrun s).poll = s.poll := rfl
@[simp] theorem raiseCmdOverrun_live (s : State) : (raiseCmdOverrun s).live = s.live := rfl
@[simp] theorem raiseCmdOverrun_engReg (s : State) : (raiseCmdOverrun s).engReg = s.engReg := rfl
@[simp] theorem raiseCmdOverrun_engIdle (s : State) : (raiseCmdOverrun s).engIdle = s.engIdle := rfl
@[simp] theorem raiseCmdOverrun_hist (s : State) : (raiseCmdOverrun s).hist = s.hist := rfl
@[simp] theorem raiseCmdOverrun_mem (s : State) : (raiseCmdOverrun s).mem = s.mem := rfl
@[simp] theorem raiseCmdOverrun_hostData (s : State) : (raiseCmdOverrun s).hostData = s.hostData := rfl
@[simp] theorem raiseCmdOverrun_env (s : State) : (raiseCmdOverrun s).env = s.env := rfl
@[simp] theorem raiseCmdOverrun_ring_get (s : State) (k' i' : Nat) : (raiseCmdOverrun s).ring k' i' = s.ring k' i' := rfl
@[simp] theorem raiseCmdOverrun_bank_get (s : State) (b' : Nat) : (raiseCmdOverrun s).bank b' = s.bank b' := rfl
@[simp] theorem raiseCmdOverrun_scat_get (s : State) (n' : Nat) : (raiseCmdOverrun s).scat n' = s.scat n' := rfl
@[simp] theorem raiseCmdOverrun_ctx_get (s : State) (c' : Nat) : (raiseCmdOverrun s).ctx c' = s.ctx c' := rfl
@[simp] theorem raiseCmdOverrun_busy_get (s : State)  : (raiseCmdOverrun s).busy = s.busy := rfl

/-! `setTimer` -/

@[simp] theorem setTimer_cfg (t : Timer) (s : State) : (setTimer t s).cfg = s.cfg := rfl
@[simp] theorem setTimer_mode (t : Timer) (s : State) : (setTimer t s).mode = s.mode := rfl
@[simp] theorem setTimer_cmd (t : Timer) (s : State) : (setTimer t s).cmd = s.cmd := rfl
@[simp] theorem setTimer_arg0 (t : Timer) (s : State) : (setTimer t s).arg0 = s.arg0 := rfl
@[simp] theorem setTimer_res0 (t : Timer) (s : State) : (setTimer t s).res0 = s.res0 := rfl
@[simp] theorem setTimer_res1 (t : Timer) (s : State) : (setTimer t s).res1 = s.res1 := rfl
@[simp] theorem setTimer_err (t : Timer) (s : State) : (setTimer t s).err = s.err := rfl
@[simp] theorem setTimer_warnCnt (t : Timer) (s : State) : (setTimer t s).warnCnt = s.warnCnt := rfl
@[simp] theorem setTimer_handlerOverrun (t : Timer) (s : State) : (setTimer t s).handlerOverrun = s.handlerOverrun := rfl
@[simp] theorem setTimer_cmdOverrun (t : Timer) (s : State) : (setTimer t s).cmdOverrun = s.cmdOverrun := rfl
@[simp] theorem setTimer_svcBudget (t : Timer) (s : State) : (setTimer t s).svcBudget = s.svcBudget := rfl
@[simp] theorem setTimer_pollPeriod (t : Timer) (s : State) : (setTimer t s).pollPeriod = s.pollPeriod := rfl
@[simp] theorem setTimer_seq (t : Timer) (s : State) : (setTimer t s).seq = s.seq := rfl
@[simp] theorem setTimer_rings (t : Timer) (s : State) : (setTimer t s).rings = s.rings := rfl
@[simp] theorem setTimer_producer (t : Timer) (s : State) : (setTimer t s).producer = s.producer := rfl
@[simp] theorem setTimer_banks (t : Timer) (s : State) : (setTimer t s).banks = s.banks := rfl
@[simp] theorem setTimer_scats (t : Timer) (s : State) : (setTimer t s).scats = s.scats := rfl
@[simp] theorem setTimer_pool (t : Timer) (s : State) : (setTimer t s).pool = s.pool := rfl
@[simp] theorem setTimer_ctxs (t : Timer) (s : State) : (setTimer t s).ctxs = s.ctxs := rfl
@[simp] theorem setTimer_disp (t : Timer) (s : State) : (setTimer t s).disp = { s.disp with timer := t } := rfl
@[simp] theorem setTimer_poll (t : Timer) (s : State) : (setTimer t s).poll = s.poll := rfl
@[simp] theorem setTimer_live (t : Timer) (s : State) : (setTimer t s).live = s.live := rfl
@[simp] theorem setTimer_engReg (t : Timer) (s : State) : (setTimer t s).engReg = s.engReg := rfl
@[simp] theorem setTimer_engIdle (t : Timer) (s : State) : (setTimer t s).engIdle = s.engIdle := rfl
@[simp] theorem setTimer_hist (t : Timer) (s : State) : (setTimer t s).hist = s.hist := rfl
@[simp] theorem setTimer_mem (t : Timer) (s : State) : (setTimer t s).mem = s.mem := rfl
@[simp] theorem setTimer_hostData (t : Timer) (s : State) : (setTimer t s).hostData = s.hostData := rfl
@[simp] theorem setTimer_env (t : Timer) (s : State) : (setTimer t s).env = s.env := rfl
@[simp] theorem setTimer_ring_get (t : Timer) (s : State) (k' i' : Nat) : (setTimer t s).ring k' i' = s.ring k' i' := rfl
@[simp] theorem setTimer_bank_get (t : Timer) (s : State) (b' : Nat) : (setTimer t s).bank b' = s.bank b' := rfl
@[simp] theorem setTimer_scat_get (t : Timer) (s : State) (n' : Nat) : (setTimer t s).scat n' = s.scat n' := rfl
@[simp] theorem setTimer_ctx_get (t : Timer) (s : State) (c' : Nat) : (setTimer t s).ctx c' = s.ctx c' := rfl
@[simp] theorem setTimer_busy_get (t : Timer) (s : State)  : (setTimer t s).busy = s.busy := rfl

/-! Updates that are another one's shorthand -/

@[simp] theorem raiseErr_eq (e : Err) (s : State) : raiseErr e s = complete e 0 0 s := rfl
@[simp] theorem completeOk_eq (s : State) : completeOk s = complete .ok 0 0 s := rfl
@[simp] theorem completeIllegal_eq (s : State) : completeIllegal s = complete .illegalCmd 0 0 s := rfl
@[simp] theorem scalar_eq (s : State) : scalar s = s.seq.arg.toNat := rfl
@[simp] theorem poolTotal_eq (s : State) : poolTotal s = s.pool.totalLinkDescs.toNat := rfl

/-! A table place after a write of a table place -/

theorem ringPlace_inj {k i k' i' : Nat} (hk : k < 16) (hi : i < 8) (h : ringPlace k i = ringPlace k' i') :
    k = k' ∧ i = i' := by
  simp only [ringPlace, hi, if_true] at h
  split at h <;> omega

theorem setRing_ring_same {k i : Nat} (hk : k < 16) (hi : i < 8) (r : RingRec) (s : State) :
    (setRing k i r s).ring k i = r := by
  have : ringPlace k i < 128 := by simp only [ringPlace, hi, if_true]; omega
  simp [State.ring, this]

theorem setRing_ring_other {k i k' i' : Nat} (hk : k' < 16) (hi : i' < 8) (h : ¬(k = k' ∧ i = i')) (r : RingRec)
    (s : State) : (setRing k i r s).ring k' i' = s.ring k' i' := by
  have hne : ringPlace k i ≠ ringPlace k' i' := fun e => h (by
    obtain ⟨a, b⟩ := ringPlace_inj hk hi e.symm
    exact ⟨a.symm, b.symm⟩)
  simp [State.ring, hne]

theorem setBank_bank_same {b : Nat} (hb : b < 256) (r : Bank) (s : State) : (setBank b r s).bank b = r := by
  simp [State.bank, hb]

theorem setBank_bank_other {b b' : Nat} (h : b ≠ b') (r : Bank) (s : State) :
    (setBank b r s).bank b' = s.bank b' := by
  simp [State.bank, h]

theorem setScat_scat_same {n : Nat} (hn : n < 256) (r : Scatter) (s : State) : (setScat n r s).scat n = r := by
  simp [State.scat, hn]

theorem setScat_scat_other {n n' : Nat} (h : n ≠ n') (r : Scatter) (s : State) :
    (setScat n r s).scat n' = s.scat n' := by
  simp [State.scat, h]

theorem setCtx_ctx_same {c : Nat} (hc : c < 16) (x : Ctx) (s : State) : (setCtx c x s).ctx c = x := by
  simp [State.ctx, hc]

theorem setCtx_ctx_other {c c' : Nat} (h : c ≠ c') (x : Ctx) (s : State) : (setCtx c x s).ctx c' = s.ctx c' := by
  simp [State.ctx, h]

/-- Reading a place of a table beyond its end gives the record of zeros. -/
theorem ring_outside {k i : Nat} (h : 16 ≤ k ∨ 8 ≤ i) (s : State) : s.ring k i = {} := by
  have : ¬ringPlace k i < 128 := by simp only [ringPlace]; split <;> omega
  simp [State.ring, this]

end Sys2Proof.Machine
end

