-- ==== Sys2Proof/Laws/Ops.lean ====
section
/-! SUPPORT. What each shared operation can do, said once: later proofs cite these and do not unfold the operation. -/

namespace Sys2Proof.Machine

/-! ## Sequencing of outcomes -/

@[simp] theorem andThen_next_eq (s : State) (f : State → Out) : andThen (.next s) f = f s := rfl
@[simp] theorem andThen_fault_eq (r : Fault) (f : State → Out) : andThen (.fault r) f = .fault r := rfl
@[simp] theorem andThen_refused_eq (r : Refusal) (f : State → Out) : andThen (.refused r) f = .refused r := rfl

theorem andThen_next {o : Out} {f : State → Out} {t : State} (h : andThen o f = .next t) :
    ∃ u, o = .next u ∧ f u = .next t := by
  cases o with
  | next u => exact ⟨u, rfl, h⟩
  | fault r => cases h
  | refused r => cases h

/-! ## Draws: nothing but the environment changes -/

/-- `t` is `s` but for the environment. -/
def EnvOnly (s t : State) : Prop := t = { s with env := t.env }

theorem drawAlloc_env (size : Nat) (s : State) : EnvOnly s (drawAlloc size s).2 := by
  unfold EnvOnly drawAlloc
  split
  · dsimp only; split <;> rfl
  · split <;> rfl

theorem drawRegister_env (k i : Nat) (s : State) : EnvOnly s (drawRegister k i s).2 := by
  unfold EnvOnly drawRegister
  split
  · rfl
  · split <;> rfl

theorem drawPublish_env (s : State) : EnvOnly s (drawPublish s).2 := by
  unfold EnvOnly drawPublish
  split
  · rfl
  · split <;> rfl

theorem drawIrqHandle_env (source : Nat) (s : State) : EnvOnly s (drawIrqHandle source s).2 := by
  unfold EnvOnly drawIrqHandle
  split
  · rfl
  · split <;> rfl

theorem drawWork_env (id : Nat) (budget : Word) (s : State) : EnvOnly s (drawWork id budget s).2 := by
  unfold EnvOnly drawWork
  split
  · rfl
  · split <;> rfl

/-! ## The host runtime port -/

/-- `HostAllocCoherent` answers nothing, and only the history and the environment change; or it answers an admissible
region, which becomes live and whose bytes lose their values. -/
theorem hostAllocCoherent_cases (size : Nat) (s : State) :
    (∃ e, hostAllocCoherent size s = (none, record .seq (.allocCoherent size none) { s with env := e })) ∨
    (∃ e va pa, allocAdmissible s size (va, pa) = true ∧
      hostAllocCoherent size s = (some ⟨va, pa, BitVec.ofNat 32 size⟩,
        { record .seq (.allocCoherent size (some (va, pa))) { s with env := e } with
          live := s.live ++ [⟨va, pa, BitVec.ofNat 32 size⟩], mem := Memory.forget s.mem pa.toNat size })) := by
  have he := drawAlloc_env size s
  unfold hostAllocCoherent
  generalize drawAlloc size s = d at he ⊢
  obtain ⟨raw, s1⟩ := d
  dsimp only at he ⊢
  rw [EnvOnly] at he
  cases raw with
  | none => exact .inl ⟨s1.env, by rw [Option.filter_none]; dsimp only; rw [← he]⟩
  | some p =>
    obtain ⟨va, pa⟩ := p
    by_cases hp : allocAdmissible s size (va, pa) = true
    · refine .inr ⟨s1.env, va, pa, hp, ?_⟩
      rw [Option.filter_some, if_pos hp]
      dsimp only
      rw [he]
      rfl
    · refine .inl ⟨s1.env, ?_⟩
      rw [Option.filter_some, if_neg hp]
      dsimp only
      rw [← he]

/-- `HostFreeCoherent` goes on only for a live region, which leaves `LIVE`. -/
theorem hostFreeCoherent_next {a : Alloc} {s t : State} (h : hostFreeCoherent a s = .next t) :
    a ∈ s.live ∧ t = { record .seq (.freeCoherent a) s with live := s.live.erase a } := by
  unfold hostFreeCoherent at h
  split at h
  · next hc => exact ⟨by simpa using hc, by simpa using h.symm⟩
  · cases h

theorem hostFreeCoherent_live {a : Alloc} {s : State} (h : a ∈ s.live) :
    hostFreeCoherent a s = .next { record .seq (.freeCoherent a) s with live := s.live.erase a } := by
  simp [hostFreeCoherent, h]

/-- An interrupt registration appends one source; only the dispatcher's list, the history and the environment change. -/
theorem hostRegisterInterrupt_eq (source c : Nat) (s : State) :
    ∃ e raw, hostRegisterInterrupt source c s =
      { record .seq (.registerInterrupt source c (legalIrqHandle s raw)) { s with env := e } with
        disp := { s.disp with
          irqReg := s.disp.irqReg ++ [⟨BitVec.ofNat 8 source, BitVec.ofNat 4 c, legalIrqHandle s raw⟩] } } := by
  have he := drawIrqHandle_env source s
  unfold hostRegisterInterrupt
  generalize drawIrqHandle source s = d at he ⊢
  obtain ⟨raw, s1⟩ := d
  dsimp only at he ⊢
  rw [EnvOnly] at he
  refine ⟨s1.env, raw, ?_⟩
  rw [he]
  rfl

/-- Fewer handles in use than candidates: one candidate is admissible. -/
theorem exists_free_handle (used : List Handle) {n : Nat} (hn : used.length + 1 < n) (hlt : n ≤ 2 ^ 32) :
    ∃ j < n, j ≠ 0 ∧ BitVec.ofNat 32 j ∉ used := by
  by_contra hc
  push Not at hc
  have hsub : (Finset.range n).erase 0 ⊆ (used.map BitVec.toNat).toFinset := by
    intro j hj
    simp only [Finset.mem_erase, Finset.mem_range] at hj
    have := hc j hj.2 hj.1
    simp only [List.mem_toFinset, List.mem_map]
    exact ⟨_, this, by rw [BitVec.toNat_ofNat, Nat.mod_eq_of_lt (by omega)]⟩
  have hcard := Finset.card_le_card hsub
  have h1 : (used.map BitVec.toNat).toFinset.card ≤ used.length := by
    simpa using List.toFinset_card_le (used.map BitVec.toNat)
  rw [Finset.card_erase_of_mem (by simp; omega), Finset.card_range] at hcard
  omega

/-- The handle an interrupt registration answers is not 0 and not in use. -/
theorem legalIrqHandle_admissible (s : State) (raw : Handle) (h : s.disp.irqReg.length + 2 ≤ 2 ^ 32) :
    irqHandleAdmissible s (legalIrqHandle s raw) = true := by
  unfold legalIrqHandle
  split
  · assumption
  · obtain ⟨j, hj, h0, hu⟩ := exists_free_handle (irqHandles s) (n := s.disp.irqReg.length + 2)
      (by simp [irqHandles]) h
    have hz : BitVec.ofNat 32 j ≠ 0 := by
      intro e
      have := congrArg BitVec.toNat e
      rw [BitVec.toNat_ofNat, Nat.mod_eq_of_lt (by omega)] at this
      exact h0 (by simpa using this)
    cases hf : ((List.range (s.disp.irqReg.length + 2)).map (BitVec.ofNat 32)).find? (irqHandleAdmissible s) with
    | some x => exact List.find?_some hf
    | none =>
      have := List.find?_eq_none.mp hf (BitVec.ofNat 32 j) (by simp only [List.mem_map, List.mem_range]; exact ⟨j, hj, rfl⟩)
      exact absurd (by simp only [irqHandleAdmissible, Bool.and_eq_true, decide_eq_true_eq]; exact ⟨hz, by simp [hu]⟩) this

/-- The free of the last registered source removes its record. -/
theorem hostFreeLastInterrupt_cases (s : State) :
    (s.disp.irqReg = [] ∧ hostFreeLastInterrupt s = s) ∨
    (∃ r, s.disp.irqReg.getLast? = some r ∧ hostFreeLastInterrupt s =
      { record .seq (.freeInterrupt r.handle) s with disp := { s.disp with irqReg := s.disp.irqReg.dropLast } }) := by
  unfold hostFreeLastInterrupt
  cases h : s.disp.irqReg.getLast? with
  | none => exact .inl ⟨List.getLast?_eq_none_iff.mp h, rfl⟩
  | some r => exact .inr ⟨r, rfl, rfl⟩

/-! ## The hardware engine port -/

/-- `EngRingRegister` is rejected, or answers a handle that is not 0 and was not registered. -/
theorem engRingRegister_cases (r : RingReq) (p : RingParams) (s : State) :
    (∃ e, engRingRegister r p s =
      (none, record .seq (.ringRegister r.cls r.inst r.owner p none) { s with env := e })) ∨
    (∃ e h, engHandleAdmissible s h = true ∧ engRingRegister r p s =
      (some h, { record .seq (.ringRegister r.cls r.inst r.owner p (some h)) { s with env := e } with
        engReg := s.engReg ++ [h] })) := by
  have he := drawRegister_env r.cls r.inst s
  unfold engRingRegister
  generalize drawRegister r.cls r.inst s = d at he ⊢
  obtain ⟨raw, s1⟩ := d
  dsimp only at he ⊢
  rw [EnvOnly] at he
  cases raw with
  | none => exact .inl ⟨s1.env, by rw [Option.filter_none]; dsimp only; rw [← he]⟩
  | some h =>
    by_cases hp : engHandleAdmissible s h = true
    · refine .inr ⟨s1.env, h, hp, ?_⟩
      rw [Option.filter_some, if_pos hp]
      dsimp only
      rw [he]
      rfl
    · refine .inl ⟨s1.env, ?_⟩
      rw [Option.filter_some, if_neg hp]
      dsimp only
      rw [← he]

/-- `EngRingUnregister` goes on only for a registered handle, which leaves `ENG_REG`. -/
theorem engRingUnregister_next {h : Handle} {s t : State} (e : engRingUnregister h s = .next t) :
    h ∈ s.engReg ∧ t = { record .seq (.ringUnregister h) s with engReg := s.engReg.erase h } := by
  unfold engRingUnregister at e
  split at e
  · next hc => exact ⟨by simpa using hc, by simpa using e.symm⟩
  · cases e

theorem engRingUnregister_registered {h : Handle} {s : State} (e : h ∈ s.engReg) :
    engRingUnregister h s = .next { record .seq (.ringUnregister h) s with engReg := s.engReg.erase h } := by
  simp [engRingUnregister, e]

/-- `EngSrcAccessStart` goes on only with the bracket closed. -/
theorem engSrcAccessStart_next {s t : State} (h : engSrcAccessStart s = .next t) :
    s.producer.bracketOpen = false ∧
      t = { record .seq (.srcAccessStart (s.ring idleClass 0).hnd) s with
        producer := { s.producer with bracketOpen := true, wrShadow := s.producer.wrHw } } := by
  unfold engSrcAccessStart at h
  split at h
  · cases h
  · next hb => exact ⟨by simpa using hb, by simpa using h.symm⟩

/-- `EngSrcGetNext` goes on only inside the bracket and with a free slot. -/
theorem engSrcGetNext_next {s t : State} (h : engSrcGetNext s = .next t) :
    s.producer.bracketOpen = true ∧ producerFull s = false ∧
      t = { record .seq (.srcGetNext (s.ring idleClass 0).hnd (producerSlot s)) s with
        producer := { s.producer with
          wrShadow := (s.producer.wrShadow + 1) % (2 * (s.ring idleClass 0).numEntries.toNat) } } := by
  unfold engSrcGetNext at h
  split at h
  · cases h
  · split at h
    · cases h
    · next hb hf => exact ⟨by simpa using hb, by simpa using hf, by simpa using h.symm⟩

/-- `EngSetLinkAddr` goes on only where its 8 bytes lie in the address space and are live; it writes them. -/
theorem engSetLinkAddr_next {slot desc : PAddr} {bank : Nat} {s t : State}
    (h : engSetLinkAddr slot bank desc s = .next t) :
    slot.toNat + idleEntrySize ≤ addressSpace ∧ (∀ j < idleEntrySize, isLive s (slot.toNat + j) = true) ∧
      t = { record .seq (.setLinkAddr slot bank desc) s with
        mem := Memory.writeLe s.mem slot.toNat idleEntrySize (entryImage bank desc) } := by
  unfold engSetLinkAddr at h
  split at h
  · cases h
  · next ha =>
    split at h
    · next hl =>
      refine ⟨by omega, ?_, by simpa using h.symm⟩
      intro j hj
      exact List.all_eq_true.mp hl j (List.mem_range.mpr hj)
    · cases h

/-- `EngIdleListPublishRing` goes on only with the bracket closed and the ring full. -/
theorem engPublishRing_next {s t : State} {ok : Bool} (h : engPublishRing s = .next (ok, t)) :
    s.producer.bracketOpen = false ∧ s.producer.wrHw = (s.ring idleClass 0).numEntries.toNat ∧
      ∃ e, t = { record .seq (.publishRing (s.ring idleClass 0).hnd ok) { s with env := e } with
        engIdle := s.engIdle || ok } := by
  unfold engPublishRing at h
  have he := drawPublish_env s
  generalize drawPublish s = d at he h
  obtain ⟨raw, s1⟩ := d
  dsimp only at he h
  rw [EnvOnly] at he
  split at h
  · cases h
  · next hc =>
    simp only [Bool.or_eq_true, decide_eq_true_eq, not_or, not_not, Bool.not_eq_true] at hc
    refine ⟨hc.1, hc.2, s1.env, ?_⟩
    simp only [Host.Outcome.next.injEq, Prod.mk.injEq] at h
    obtain ⟨rfl, rfl⟩ := h
    rw [he]
    rfl

/-- `EngIdleListPublishScatter` records its answer; an accepted list makes `ENG_IDLE` true. -/
theorem engPublishScatter_eq (s : State) :
    ∃ e ok, engPublishScatter s = (ok, { record .seq (.publishScatter (scatterList s) ok) { s with env := e } with
      engIdle := s.engIdle || ok }) := by
  have he := drawPublish_env s
  unfold engPublishScatter
  generalize drawPublish s = d at he ⊢
  obtain ⟨raw, s1⟩ := d
  dsimp only at he ⊢
  rw [EnvOnly] at he
  refine ⟨s1.env, raw, ?_⟩
  rw [he]
  rfl

/-! ## The service loop -/

/-- A handler call touches the context's record, the history, the environment and `FAULT.HANDLER_OVERRUN`, nothing else. -/
theorem callHandler_frame (a : Agent) (c : Nat) (p : Slot × Nat) (s : State) :
    ∃ cs ho h e, callHandler a c p s = { s with ctxs := cs, handlerOverrun := ho, hist := h, env := e } := by
  unfold callHandler
  dsimp only
  split
  · have he := drawWork_env p.1.ringId (s.ctx c).rem (enterSlot c p s)
    generalize drawWork p.1.ringId (s.ctx c).rem (enterSlot c p s) = d at he
    obtain ⟨w, s2⟩ := d
    dsimp only at he ⊢
    rw [EnvOnly] at he
    rw [he]
    unfold account
    dsimp only
    split <;> exact ⟨_, _, _, _, rfl⟩
  · unfold drainReo
    split <;> exact ⟨_, _, _, _, rfl⟩

theorem loopStep_frame {a : Agent} {c : Nat} {s t : State} (h : loopStep a c s = some t) :
    ∃ cs ho hi e, t = { s with ctxs := cs, handlerOverrun := ho, hist := hi, env := e } := by
  unfold loopStep at h
  obtain ⟨p, -, rfl⟩ := Option.map_eq_some_iff.mp h
  exact callHandler_frame a c p s

/-! ## Every context at once -/

/-- Updating the first `n` contexts changes only the context table. -/
theorem foldl_setCtx_frame (f : Nat → Ctx → Ctx) (l : List Nat) (s : State) :
    ∃ cs, l.foldl (fun t c => setCtx c (f c (t.ctx c)) t) s = { s with ctxs := cs } := by
  induction l generalizing s with
  | nil => exact ⟨s.ctxs, rfl⟩
  | cons c rest ih =>
    obtain ⟨cs, h⟩ := ih (setCtx c (f c (s.ctx c)) s)
    exact ⟨cs, by rw [List.foldl_cons, h]; rfl⟩

theorem mapContexts_frame (f : Nat → Ctx → Ctx) (s : State) : ∃ cs, mapContexts f s = { s with ctxs := cs } :=
  foldl_setCtx_frame f _ s

theorem foldl_setCtx_ctx (f : Nat → Ctx → Ctx) (n : Nat) (hn : n ≤ 16) (s : State) (c : Nat) :
    ((List.range n).foldl (fun t c => setCtx c (f c (t.ctx c)) t) s).ctx c =
      if c < n then f c (s.ctx c) else s.ctx c := by
  induction n with
  | zero => simp
  | succ n ih =>
    rw [List.range_succ, List.foldl_append, List.foldl_cons, List.foldl_nil]
    by_cases h : c = n
    · subst h
      rw [setCtx_ctx_same (by omega), ih (by omega)]
      simp
    · rw [setCtx_ctx_other (fun e => h e.symm), ih (by omega)]
      split <;> split <;> first | rfl | omega

/-- Every configured context gets its update and the others none. -/
theorem mapContexts_ctx (f : Nat → Ctx → Ctx) (s : State) (h : s.cfg.numCtx ≤ 16) (c : Nat) :
    (mapContexts f s).ctx c = if c < s.cfg.numCtx then f c (s.ctx c) else s.ctx c :=
  foldl_setCtx_ctx f _ h s c

/-! ## The sequencer's run -/

theorem runSeq_of_stopped {s : State} (h : seqStopped s = true) (n : Nat) : runSeq n s = .next s := by
  cases n with
  | zero => rfl
  | succ n => simp [runSeq, h]

theorem runSeq_step {s : State} (h : seqStopped s = false) (n : Nat) :
    runSeq (n + 1) s = andThen (seqStep s) (runSeq n) := by simp [runSeq, h]

theorem runSeq_seqFuel {s : State} (h : seqStopped s = false) :
    runSeq seqFuel s = andThen (seqStep s) (runSeq (seqFuel - 1)) := runSeq_step h (seqFuel - 1)

/-- What every step of the sequencer keeps, a run keeps. -/
theorem runSeq_keeps (P : State → Prop) (hP : ∀ s t, P s → seqStep s = .next t → P t) :
    ∀ n s t, P s → runSeq n s = .next t → P t := by
  intro n
  induction n with
  | zero => intro s t hs h; cases h; exact hs
  | succ n ih =>
    intro s t hs h
    unfold runSeq at h
    split at h
    · cases h; exact hs
    · obtain ⟨u, hu, ht⟩ := andThen_next h
      exact ih u t (hP s u hs hu) ht

/-- If no step stops the machine from a state with `P`, no run does. -/
theorem runSeq_answers (P : State → Prop) (hP : ∀ s, P s → ∃ t, seqStep s = .next t ∧ P t) :
    ∀ n s, P s → ∃ t, runSeq n s = .next t ∧ P t := by
  intro n
  induction n with
  | zero => intro s hs; exact ⟨s, rfl, hs⟩
  | succ n ih =>
    intro s hs
    unfold runSeq
    split
    · exact ⟨s, rfl, hs⟩
    · obtain ⟨u, hu, pu⟩ := hP s hs
      rw [hu, andThen_next_eq]
      exact ih u pu

/-- The meaning of a command is its first step and then a run of the sequencer. -/
theorem exec_eq (i : Instr) (s : State) : exec i s = runCommand (beginCommand i) s := by
  cases i <;> rfl

theorem runCommand_start {begin : State → State} {s : State} (h : s.seq.pos = .start) :
    runCommand begin s = runSeq seqFuel (begin s) := by simp [runCommand, h]

theorem seqFuel_pos : ∃ n, seqFuel = n + 1 := ⟨seqFuel - 1, rfl⟩

end Sys2Proof.Machine
end

