-- ==== Sys2Proof/Laws/PerInstr.lean ====
section
/-! SUPPORT. What the encoding says of each command by itself: the word of a well-formed command agrees with its row's match
under its row's mask (30_encoding.md R96). -/

namespace Sys2Proof.Laws

/-- The `match` column of R96. -/
def rowMatch : Instr → Nat
  | .nop => 0x00000000
  | .ringSetup _ _ _ => 0x10000000
  | .ringCleanup _ _ => 0x11000000
  | .linkPoolSetup => 0x20000000
  | .linkPoolCleanup => 0x21000000
  | .dispAttach => 0x30000000
  | .dispDetach => 0x31000000
  | .service _ => 0x40000000

/-- How many low bits the row's format marks "reserved, must be 0" (R91). -/
def reservedLength : Instr → Nat
  | .nop => 24
  | .ringSetup _ _ _ => 12
  | .ringCleanup _ _ => 16
  | .linkPoolSetup => 24
  | .linkPoolCleanup => 24
  | .dispAttach => 24
  | .dispDetach => 24
  | .service _ => 20

/-- The word of a well-formed command has its row's opcode in bits 31:24 and zeros in its reserved bits. -/
def RowOfWord.Statement (i : Instr) : Prop :=
  WellFormed i = true →
    (encode i).toNat / 2 ^ 24 * 2 ^ 24 = rowMatch i ∧ (encode i).toNat % 2 ^ reservedLength i = 0

theorem RowOfWord.nop : RowOfWord.Statement .nop := fun _ => by decide

theorem RowOfWord.ringSetup (cls inst owner : Nat) : RowOfWord.Statement (.ringSetup cls inst owner) := fun h => by
  simp only [WellFormed, fitsField, Bool.and_eq_true, decide_eq_true_eq] at h
  simp only [encode, wordOf, rowMatch, reservedLength, BitVec.toNat_ofNat]
  omega

theorem RowOfWord.ringCleanup (cls inst : Nat) : RowOfWord.Statement (.ringCleanup cls inst) := fun h => by
  simp only [WellFormed, fitsField, Bool.and_eq_true, decide_eq_true_eq] at h
  simp only [encode, wordOf, rowMatch, reservedLength, BitVec.toNat_ofNat]
  omega

theorem RowOfWord.linkPoolSetup : RowOfWord.Statement .linkPoolSetup := fun _ => by decide

theorem RowOfWord.linkPoolCleanup : RowOfWord.Statement .linkPoolCleanup := fun _ => by decide

theorem RowOfWord.dispAttach : RowOfWord.Statement .dispAttach := fun _ => by decide

theorem RowOfWord.dispDetach : RowOfWord.Statement .dispDetach := fun _ => by decide

theorem RowOfWord.service (ctx : Nat) : RowOfWord.Statement (.service ctx) := fun h => by
  simp only [WellFormed, fitsField, decide_eq_true_eq] at h
  simp only [encode, wordOf, rowMatch, reservedLength, BitVec.toNat_ofNat]
  omega

end Sys2Proof.Laws
end

