-- ==== Sys2Proof/Laws/Step.lean ====
section
/-! SUPPORT. What the two tests in front of a step can do: where a host access lands in the register window, and which
command is refused before its first step. -/

namespace Sys2Proof.Machine

/-! ## Host accesses by address (R74, log 19) -/

@[simp] theorem windowOffset_base_add (c : Config) (offset : Nat) : windowOffset c (c.mgrBase + offset) = some offset := by
  simp [windowOffset]

theorem windowOffset_below {c : Config} {address : Nat} (h : address < c.mgrBase) : windowOffset c address = none := by
  simp [windowOffset, h]

@[simp] theorem hostWriteAt_base_add (s : State) (width offset : Nat) (v : Word) :
    hostWriteAt width (s.cfg.mgrBase + offset) v s = hostWrite width offset v s := by simp [hostWriteAt]

@[simp] theorem hostReadAt_base_add (s : State) (width offset : Nat) :
    hostReadAt width (s.cfg.mgrBase + offset) s = hostRead width offset s := by simp [hostReadAt]

theorem hostWriteAt_below {s : State} {address : Nat} (h : address < s.cfg.mgrBase) (width : Nat) (v : Word) :
    hostWriteAt width address v s = s := by simp [hostWriteAt, windowOffset_below h]

theorem hostReadAt_below {s : State} {address : Nat} (h : address < s.cfg.mgrBase) (width : Nat) :
    hostReadAt width address s = s := by simp [hostReadAt, windowOffset_below h]

/-! ## The refused cleanup (R288, R295, log 24) -/

/-- What `breaksPrecondition` tests is the breach of R288 that the statements name. -/
theorem cleanupWhileServiced_iff {i : Instr} {s : State} : CleanupWhileServiced i s ↔ breaksPrecondition i s = true := by
  cases i <;> simp [CleanupWhileServiced, breaksPrecondition, namedByMask, and_assoc]

/-- A step of the sequencer is refused for that breach only as the first step of the cleanup that makes it. -/
theorem seqAgentStep_start {s : State} {i : Instr} (hp : s.seq.pos = .start) (hd : decoded s.cmd = some i) :
    seqAgentStep s = if breaksPrecondition i s then .refused .ringStillServiced else .next (beginCommand i s) := by
  simp [seqAgentStep, hp, hd]

end Sys2Proof.Machine
end

