-- ==== Sys2Proof/Tests/Slice0.lean ====
section
/-! SUPPORT. The model's own tests: ill-formed commands, words written out from the spec's encodings, one-step tests whose
expected values stand in the spec, and for every statement with hypotheses a state and operands that meet them. -/

namespace Sys2Proof.Tests

open Sys2Proof Sys2Proof.Machine

set_option Elab.async false

/-! ## Helpers -/

/-- The machine after reset, with the reference environment of R226, R227. -/
def start (c : Config) (md : Mode) : State := { State.resetWith c md with env := { reference := some {} } }

/-- A state with the command accepted and `ARG0 = n` sampled. -/
def issue (i : Instr) (n : Nat) (s : State) : State := accept (encode i) (some i) { s with arg0 := BitVec.ofNat 32 n }

/-- The next state of a run, or the state before where there is none. -/
def after (o : Out) (s : State) : State :=
  match o with
  | .next t => t
  | _ => s

/-- The state after a command has run. -/
def ran (i : Instr) (n : Nat) (s : State) : State := after (exec i (issue i n s)) s

/-- The next move. -/
def turn (m : Move) (s : State) : State := { s with env := { s.env with moves := [m] } }

/-- The outcome is a next state with the property. -/
def reaches (o : Out) (p : State → Bool) : Bool :=
  match o with
  | .next t => p t
  | _ => false

/-- The outcome is the refusal. -/
def refuses (o : Out) (r : Refusal) : Bool :=
  match o with
  | .refused q => q == r
  | _ => false

/-- The configuration TINY with no more than 3 scatter buffers. -/
def fewBufs : Config := { Config.tiny with maxScatterBufs := 3 }

/-- The configuration TINY with scatter buffers of 15 bytes, so one entry each. -/
def shortBufs : Config := { Config.tiny with scatterBufSize := 15, maxScatterBufs := 256 }

/-- Answers for the idle-list programs: the second allocation is refused. -/
def refusing (s : State) : State := { s with env := { s.env with reference := some { alloc := [true, false] } } }

/-- TINY, event mode. -/
def tiny : State := start .tiny .event

/-- TINY with the register window at another base (R74). -/
def based : State := start { Config.tiny with mgrBase := 0x40000 } .event

/-- TINY with the pool of program P2 (in-ring). -/
def ringPool : State := ran .linkPoolSetup 1 tiny

/-- TINY with the pool of program P3 (scatter). -/
def scatterPool : State := ran .linkPoolSetup 2 tiny

/-- A configuration whose least pool has one descriptor, and the idle list in a ring. -/
def oneDesc : Config := { Config.tiny with mpdusPerLinkDesc := 1000, msdusPerLinkDesc := 1000 }

/-- A configuration whose least pool has four descriptors, each bank and each scatter buffer holding one. -/
def fourDescs : Config :=
  { Config.tiny with linkDescAlign := 1, maxAllocSize := 16, scatterBufSize := 8, msdusPerLinkDesc := 1000 }

/-- The least valid pool with the idle list in a ring. -/
def smallRingPool : State := ran .linkPoolSetup 1 (start oneDesc .event)

/-- The least valid pool with the idle list in scatter buffers. -/
def smallScatterPool : State := ran .linkPoolSetup 1 (start fourDescs .event)

/-- TINY with one ring set up. -/
def oneRing : State := ran (.ringSetup 6 0 1) 4096 tiny

/-- REF attached in event mode. -/
def attached : State := ran .dispAttach 0 (start .ref .event)

/-- REF attached in poll mode. -/
def polling : State := ran .dispAttach 0 (start .ref .poll)

/-- REF attached, context 0 started by an event of source 0. -/
def serving : State := svcStep 0 (deliver 0 attached)

/-- REF polling, a pass just begun. -/
def inPass : State := timerFire polling

/-! ## Ill-formed commands (R91) -/

theorem test_wellFormed_cls : WellFormed (.ringSetup 16 0 0) = false := by decide
theorem test_wellFormed_inst : WellFormed (.ringSetup 0 16 0) = false := by decide
theorem test_wellFormed_owner : WellFormed (.ringSetup 0 0 16) = false := by decide
theorem test_wellFormed_cleanup_cls : WellFormed (.ringCleanup 16 0) = false := by decide
theorem test_wellFormed_cleanup_inst : WellFormed (.ringCleanup 0 16) = false := by decide
theorem test_wellFormed_ctx : WellFormed (.service 16) = false := by decide
theorem test_wellFormed_limits :
    WellFormed (.ringSetup 15 15 15) = true ∧ WellFormed (.ringCleanup 15 15) = true ∧ WellFormed (.service 15) = true := by
  decide

/-! ## Words written out from the formats of R91 and the opcodes of R96: OPC, fields, reserved bits -/

theorem test_decode_nop : decode 0b00000000_000000000000000000000000 = .ok .nop := by decide
theorem test_decode_ringSetup : decode 0b00010000_0110_0000_0001_000000000000 = .ok (.ringSetup 6 0 1) := by decide
theorem test_decode_ringSetup_fields : decode 0b00010000_0001_0010_0100_000000000000 = .ok (.ringSetup 1 2 4) := by decide
theorem test_decode_ringCleanup : decode 0b00010001_0001_1000_0000000000000000 = .ok (.ringCleanup 1 8) := by decide
theorem test_decode_linkPoolSetup : decode 0b00100000_000000000000000000000000 = .ok .linkPoolSetup := by decide
theorem test_decode_linkPoolCleanup : decode 0b00100001_000000000000000000000000 = .ok .linkPoolCleanup := by decide
theorem test_decode_dispAttach : decode 0b00110000_000000000000000000000000 = .ok .dispAttach := by decide
theorem test_decode_dispDetach : decode 0b00110001_000000000000000000000000 = .ok .dispDetach := by decide
theorem test_decode_service : decode 0b01000000_0010_00000000000000000000 = .ok (.service 2) := by decide

/-- Reserved opcodes and reserved bits (R95, R98; 95_test_vectors.md section 4). -/
theorem test_decode_illegal :
    decode 0x01000000 = .error (.reservedOpcode 1) ∧ decode 0x00000001 = .error (.reservedBits 0) ∧
      decode 0x10000800 = .error (.reservedBits 16) ∧ decode 0x11008000 = .error (.reservedBits 17) ∧
      decode 0x40080000 = .error (.reservedBits 64) ∧ decode 0xFFFFFFFF = .error (.reservedOpcode 255) := by decide

theorem test_decodeBytes :
    decodeBytes [0x00, 0x10, 0x60, 0x10, 0xAA] = .ok (.ringSetup 6 0 1, [0xAA]) := by decide

theorem test_decodeTableWord : decodeTableWord 32 0x40200000 = some (.service 2) ∧ decodeTableWord 32 0x41000000 = none := by
  decide

/-! ## Script lines (R99) -/

theorem test_script_line :
    readLine "RING_SETUP cls=RX_BUF inst=0 owner=1 entries=0x1000 ; a comment".toList =
      some (.command (.ringSetup 6 0 1) (some 4096)) := by decide +kernel

theorem test_script_pending : readLine ".pending TX_COMP1=2 RX_DST3=1".toList = some (.pending [(1, 2), (11, 1)]) := by
  decide +kernel

/-! ## One step each, expected values from the spec -/

/-- R125. -/
theorem test_nop : reaches (exec .nop (issue .nop 7 tiny)) (fun t => t.err == .ok && t.res0 == 0 && !t.busy) = true := by
  decide +kernel

/-- The worked example of R117 (the reference engine's handle is 49). -/
theorem test_ringSetup :
    reaches (exec (.ringSetup 6 0 1) (issue (.ringSetup 6 0 1) 4096 (start .ref .event))) (fun t =>
      t.res0 == 48 && t.res1 == 0x10000008 && (t.ring 6 0).lowThres == 512 && (t.ring 6 0).rawSize == 32775 &&
        (t.ring 6 0).hnd == 49) = true := by decide +kernel

/-- R115: a rejected ring leaves nothing live. -/
theorem test_ringSetup_rejected :
    reaches (exec (.ringSetup 6 0 1) (issue (.ringSetup 6 0 1) 4096
      { tiny with env := { reference := some { engine := [false] } } })) (fun t =>
      t.err == .regFail && t.live == [] && t.engReg == [] && t.ring 6 0 == {}) = true := by decide +kernel

/-- The worked example of R122: the second cleanup is a warning. -/
theorem test_ringCleanup :
    reaches (exec (.ringCleanup 6 0) (issue (.ringCleanup 6 0) 0 oneRing)) (fun t =>
      t.err == .ok && t.live == [] && t.engReg == [] && t.warnCnt == 0) = true := by decide +kernel

theorem test_ringCleanup_twice :
    reaches (exec (.ringCleanup 6 0) (issue (.ringCleanup 6 0) 0 (ran (.ringCleanup 6 0) 0 oneRing))) (fun t =>
      t.err == .ok && t.warnCnt == 1) = true := by decide +kernel

/-- The worked example of R159. -/
theorem test_linkPoolSetup :
    reaches (exec .linkPoolSetup (issue .linkPoolSetup 2 tiny)) (fun t =>
      t.err == .ok && t.res0 == 32 && t.res1 == 0x00040005 && t.pool.tailOffset == 56) = true := by decide +kernel

/-- R155: a refused allocation unwinds everything. -/
theorem test_linkPoolSetup_unwinds :
    reaches (exec .linkPoolSetup (issue .linkPoolSetup 2 (refusing tiny))) (fun t =>
      t.err == .allocFail && t.live == [] && t.pool == {} && t.bank 0 == {}) = true := by decide +kernel

/-- The worked example of R163: scatter buffers, then banks, each from the last. -/
theorem test_linkPoolCleanup :
    reaches (exec .linkPoolCleanup (issue .linkPoolCleanup 0 scatterPool)) (fun t =>
      t.err == .ok && t.live == [] && (released (t.hist.drop scatterPool.hist.length)).map (fun a => a.size.toNat) ==
        [64, 64, 64, 64, 79, 128, 128, 128, 128]) = true := by decide +kernel

/-- R161. -/
theorem test_linkPoolCleanup_empty :
    reaches (exec .linkPoolCleanup (issue .linkPoolCleanup 0 tiny)) (fun t => t.err == .ok && t.hist == []) = true := by
  decide +kernel

/-- The worked example of R177. -/
theorem test_dispAttach :
    attached.res0 = 10 ∧ attached.disp.irqReg.map (fun r => (r.source.toNat, r.ctx.toNat)) =
      [(0, 0), (8, 0), (16, 0), (1, 1), (9, 1), (24, 1), (2, 2), (10, 2), (32, 2), (11, 3)] := by decide +kernel

theorem test_dispAttach_poll :
    polling.res0 = 0 ∧ polling.hist.map Event.op = [.timerInit, .timerStart 1] := by decide +kernel

/-- The worked example of R186. -/
theorem test_dispDetach :
    reaches (exec .dispDetach (issue .dispDetach 0 attached)) (fun t =>
      !t.disp.attached && (t.ctx 0).txMask == 0 && (t.hist.drop 10).map Event.op ==
        (irqHandles attached).reverse.map PortOp.freeInterrupt) = true := by decide +kernel

theorem test_dispDetach_poll :
    reaches (exec .dispDetach (issue .dispDetach 0 polling)) (fun t =>
      t.disp.timer == .none && (t.hist.drop 2).map Event.op == [.timerStop, .timerFree]) = true := by decide +kernel

/-- Scenario C (R203). -/
theorem test_service_scenario_c :
    reaches (exec (.service 0) (issue (.service 0) 2 (setReference (fun r =>
      { r with pend := ((r.pend.setIfInBounds 0 1).setIfInBounds 16 1).setIfInBounds 8 1 }) attached))) (fun t =>
      t.res0 == 2 && (t.hist.drop 10).map Event.op == [.handlerTxComp 0 0 2 1, .handlerRxExc 0 1 1]) = true := by
  decide +kernel

/-- P7 (R205): budget 0 still drains the REO-status ring. -/
theorem test_service_reo :
    reaches (exec (.service 2) (issue (.service 2) 0 attached)) (fun t =>
      t.res0 == 0 && (t.hist.drop 10).map Event.op == [.handlerReoStatus 2]) = true := by decide +kernel

/-- The example of R77: bank 2, descriptor address `0x12_3456_7880`. -/
theorem test_entry_image :
    leBytes (entryImage 2 0x1234567880) 8 = [0x80, 0x78, 0x56, 0x34, 0x12, 0x02, 0x00, 0x00] := by decide

/-- The interface's word from reset runs in the very next step. -/
theorem test_withFetchWord :
    reaches (step (State.reset.withFetchWord 32 0x40000000)) (fun t => t.err == .ok && t.seq.pos == .idle) = true ∧
      reaches (step (State.reset.withFetchWord 32 0x40800000)) (fun t => t.err == .configErr) = true := by decide +kernel

/-! ## Witnesses: encoding, issue, arithmetic -/

/-- DecodingInvertsEncoding, at the largest field values. -/
theorem witness_wellFormed : WellFormed (.ringSetup 15 15 15) = true ∧ WellFormed .nop = true := by decide

/-- EncodingInvertsDecoding. -/
theorem witness_decoded : decode 0x10FFF000 = .ok (.ringSetup 15 15 15) := by decide

/-- StepRunsTheDecodedCommand: a command, and a word that is none. -/
theorem witness_command_turn :
    (let s := turn .command (issue .dispAttach 0 tiny)
    configValid s.cfg = true ∧ s.env.moves = [.command] ∧ s.seq.pos ≠ .idle ∧ decode s.cmd = .ok .dispAttach) ∧
    (let s := turn .command (accept 0x12000000 none tiny)
    configValid s.cfg = true ∧ s.env.moves = [.command] ∧ s.seq.pos ≠ .idle ∧
      decode s.cmd = .error (.reservedOpcode 0x12)) := by decide +kernel

/-- StepRunsTheDecodedCommand, ConsistentMachineStopsOnlyOnBreaches and RunOfACommandIsItsSteps: a cleanup of a ring that the
attached context 0 names is refused, and one of a ring set up after the detach is not. -/
theorem witness_cleanup_breach :
    (let s := turn .command (issue (.ringCleanup 0 0) 0 (ran (.ringSetup 0 0 0) 4 attached))
    decode s.cmd = .ok (.ringCleanup 0 0) ∧ CleanupWhileServiced (.ringCleanup 0 0) s ∧
      refuses (step s) .ringStillServiced = true) ∧
    (let s := turn .command (issue (.ringCleanup 0 0) 0 (ran .dispDetach 0 (ran (.ringSetup 0 0 0) 4 attached)))
    ¬CleanupWhileServiced (.ringCleanup 0 0) s ∧ reaches (step s) (fun t => t.err == .ok && t.live == []) = true) := by
  simp only [cleanupWhileServiced_iff]
  decide +kernel

/-- IllegalWordChangesNothingElse. -/
theorem witness_illegal_word :
    let s := { based with env := { based.env with moves := [.hostWrite 4 0x40004 1, .command] } }
    configValid s.cfg = true ∧ s.seq = {} ∧ decode 1 = .error (.reservedBits 0) ∧
      s.env.moves = .hostWrite 4 (s.cfg.mgrBase + 0x004) 1 :: .command :: [] := by decide +kernel

/-- CommandWriteIsAcceptedWhenIdle. -/
theorem witness_idle_write :
    let s := turn (.hostWrite 4 0x40004 0x30000000) based
    configValid s.cfg = true ∧ s.env.moves = [.hostWrite 4 (s.cfg.mgrBase + 0x004) 0x30000000] ∧ s.seq.pos = .idle := by
  decide +kernel

/-- CommandWriteIsDroppedWhenBusy. -/
theorem witness_busy_write :
    let s := turn (.hostWrite 4 0x40004 0x30000000) (issue .nop 0 based)
    configValid s.cfg = true ∧ s.env.moves = [.hostWrite 4 (s.cfg.mgrBase + 0x004) 0x30000000] ∧ s.seq.pos ≠ .idle := by
  decide +kernel

/-- R74: an access below the window's base changes nothing. -/
theorem test_below_window : hostWriteAt 4 0x3FFFC 0x30000000 based = based ∧ hostReadAt 4 0 based = based :=
  ⟨rfl, rfl⟩

/-- MainRegistersShowTheirState: the counts are within its bounds, and the positions it names are met. -/
theorem witness_main_registers :
    (issue .nop 0 tiny).pool.numBanks ≤ 256 ∧ (issue .nop 0 tiny).pool.numScatterBufs ≤ 256 ∧
      (after (seqSteps 1 (issue .linkPoolSetup 1 tiny)) tiny).seq.pos = .bankAlloc 0 ∧
      readReg (after (seqSteps 1 (issue .linkPoolSetup 1 tiny)) tiny) 0x034 = 0x23 := by decide +kernel

/-- InvalidConfigurationIsRefused: both kinds of configuration exist. -/
theorem witness_invalid_configuration :
    configValid { Config.tiny with numCtx := 0 } = false ∧ configValid Config.tiny = true ∧ configValid Config.ref = true := by
  decide +kernel

/-- AlignUpIsTheLeastMultiple, at the least and at a usual size. -/
theorem witness_align : 0 + 2 ^ 0 ≤ 2 ^ 0 ∧ 0x10000004 + 2 ^ 3 ≤ 2 ^ 40 := by decide

/-- PlannedTotalIsTheLeastPowerOfTwo and BankPlanCoversThePool: one bank, and several. -/
theorem witness_plan :
    planTotal Config.tiny 2 = some 32 ∧ planTotal Config.ref 64 = some 32768 ∧ 1 ≤ 32 ∧
      banksNeeded { Config.tiny with maxAllocSize := 1000 } 32 = 1 ∧ banksNeeded Config.tiny 32 = 5 := by decide +kernel

/-- ScatterPlanHoldsEveryEntry. -/
theorem witness_scatter_plan :
    configValid Config.tiny = true ∧ planTotal Config.tiny 2 = some 32 ∧ idlePathFor Config.tiny 32 = .scatter := by
  decide +kernel

/-- EntryImageIsLittleEndian, at the last bank number. -/
theorem witness_live_slot :
    255 < 256 ∧ (0x10000008 : PAddr).toNat + 8 ≤ 2 ^ 40 ∧
      ∀ j < 8, isLive oneRing ((0x10000008 : PAddr).toNat + j) = true := by decide +kernel

/-! ## Witnesses: NOP and the ring commands -/

theorem accepted_issue (i : Instr) {n : Nat} (hn : n < 2 ^ 32) (s : State) : Accepted (issue i n s) n :=
  ⟨rfl, rfl, rfl, by
    show (BitVec.ofNat 32 n).toNat = n
    rw [BitVec.toNat_ofNat, Nat.mod_eq_of_lt hn]⟩

/-- NopCompletes, and every statement whose only hypothesis on the sequencer is its position. -/
theorem witness_started : (issue .nop 0 tiny).seq.pos = .start := rfl

/-- RingSetupRecordsTheRing, for a class that is no buffer supply and for one that is, at the least entry count and more. -/
theorem witness_ringSetup :
    ∀ p ∈ [(6, 0, 4096), (0, 2, 1)],
      let s := issue (.ringSetup p.1 p.2.1 1) p.2.2 tiny
      let r : RingReq := ⟨p.1, p.2.1, 1, p.2.2⟩
      let d := hostAllocCoherent (ringSize s.cfg p.1 p.2.2) s
      configValid s.cfg = true ∧ p.1 ≠ idleClass ∧ slotExists s.cfg p.1 p.2.1 = true ∧
        (s.ring p.1 p.2.1).registered = false ∧ p.2.2 ≠ 0 ∧
        p.2.2 * (classOf s.cfg p.1).entrySize.toNat + (classOf s.cfg p.1).align - 1 ≤ 2 ^ 32 - 1 ∧ d.1.isSome = true ∧
        (d.1.bind fun a => (engRingRegister r (ringParams (ringRecord s.cfg r a 0)) d.2).1).isSome = true := by
  decide +kernel

/-- RingSetupConfigurationErrors: each clause, at its boundary. -/
theorem witness_ringSetup_errors :
    (5 = 5) ∧ (classOf Config.tiny 7).valid = false ∧ (classOf Config.tiny 0).maxInst ≤ 3 ∧
      ((issue .nop 0 oneRing).ring 6 0).registered = true ∧
      2 ^ 32 - 1 < 0x08000000 * (classOf Config.tiny 0).entrySize.toNat + (classOf Config.tiny 0).align - 1 ∧
      ¬2 ^ 32 - 1 < 0x07FFFFFF * (classOf Config.tiny 0).entrySize.toNat + (classOf Config.tiny 0).align - 1 := by
  decide +kernel

/-- RingSetupFailsWithoutMemory and RingSetupFailsWhenRejected: the answers that the statements suppose. -/
theorem witness_ringSetup_refusals :
    (let s := issue (.ringSetup 6 0 1) 1 { tiny with env := { reference := some { alloc := [false] } } }
    slotExists s.cfg 6 0 = true ∧ (s.ring 6 0).registered = false ∧ (hostAllocCoherent (ringSize s.cfg 6 1) s).1 = none) ∧
    (let s := issue (.ringSetup 6 0 1) 1 { tiny with env := { reference := some { engine := [false] } } }
    let d := hostAllocCoherent (ringSize s.cfg 6 1) s
    configValid s.cfg = true ∧ slotExists s.cfg 6 0 = true ∧ (s.ring 6 0).registered = false ∧
      (match d.1 with
        | some a => (engRingRegister ⟨6, 0, 1, 1⟩ (ringParams (ringRecord s.cfg ⟨6, 0, 1, 1⟩ a 0)) d.2).1 == none
        | none => false) = true) := by decide +kernel

/-- RingCleanupFreesTheRing. -/
theorem witness_ringCleanup :
    let s := issue (.ringCleanup 6 0) 0 oneRing
    s.seq.pos = .start ∧ 6 ≠ idleClass ∧ slotExists s.cfg 6 0 = true ∧ (s.ring 6 0).registered = true ∧
      (s.ring 6 0).hnd ∈ s.engReg ∧ ⟨(s.ring 6 0).rawVa, (s.ring 6 0).rawPa, (s.ring 6 0).rawSize⟩ ∈ s.live := by
  decide +kernel

/-- RingCleanupOfUnregisteredRingWarns, also with the counter at its end. -/
theorem witness_ringCleanup_warns :
    let s := { issue (.ringCleanup 0 2) 0 tiny with warnCnt := 0xFFFFFFFF }
    s.seq.pos = .start ∧ 0 ≠ idleClass ∧ slotExists s.cfg 0 2 = true ∧ (s.ring 0 2).registered = false := by
  decide +kernel

/-- RingCleanupConfigurationErrors: each clause, at its boundary. -/
theorem witness_ringCleanup_errors :
    (5 = 5) ∧ (classOf Config.tiny 7).valid = false ∧ (classOf Config.tiny 6).maxInst ≤ 1 := by decide +kernel

/-! ## Witnesses: the pool commands -/

/-- PoolSetupConfigurationErrors: each clause. -/
theorem witness_poolSetup_errors :
    ringPool.pool.valid = true ∧ 2 ^ 31 < rawCount Config.ref 0xFFFFFFFF ∧
      Config.tiny.maxLinkDescBanks < banksNeeded Config.tiny (pow2Ceil (rawCount Config.tiny 4)) ∧
      fewBufs.maxAllocSize < 8 * 32 ∧ pow2Ceil (rawCount fewBufs 2) = 32 ∧
      fewBufs.maxScatterBufs < ceilDiv (8 * 32) fewBufs.scatterBufSize ∧
      shortBufs.maxAllocSize < 8 * 32 ∧ pow2Ceil (rawCount shortBufs 2) = 32 ∧
      ceilDiv (8 * 32) shortBufs.scatterBufSize ≤ shortBufs.maxScatterBufs ∧
      ceilDiv (8 * 32) shortBufs.scatterBufSize * (shortBufs.scatterBufSize / 8) < 32 := by decide +kernel

/-- Consistency of a state whose command is not begun, from its decidable parts. -/
theorem consistent_at_start {s : State} (hp : s.seq.pos = .start) (hc : s.seq.cursor = 0) (hf : s.seq.failure = .ok)
    (hq : s.seq.op = ((decoded s.cmd).map opOf).getD .none) (hl : LiveOk s)
    (hv : configValid s.cfg = true) (hr : ∀ k < 16, ∀ i < 8, RingOk s.cfg k i (s.ring k i)) (ht : TablesOk s)
    (ha : PoolAtRest s) (ho : OwnershipOk s) : Consistent s :=
  ⟨by unfold SeqOk; rw [hp]; exact ⟨hq, hc, hf⟩, hl, ⟨hv, hr, by unfold RingSetupOk; rw [hp]; trivial⟩,
    ⟨ht, fun _ => hc, by
      have hu : underWay s = false := by unfold underWay; rw [hp]
      rw [hu]
      exact ⟨ha, fun h => by cases h⟩⟩, ho⟩

/-- With no ring set up, every record is as R34 says. -/
theorem rings_untouched {s : State} (h : s.rings = Vector.replicate 128 {}) (k i : Nat) :
    RingOk s.cfg k i (s.ring k i) := by
  have hr : s.ring k i = {} := by
    unfold State.ring
    rw [h]
    by_cases hp : ringPlace k i < 128 <;> simp [hp]
  rw [hr]
  simp [RingOk]

/-- A machine without a pool is consistent: `LINK_POOL_SETUP` accepted on TINY, on either path with the answers that agree, and
with those that refuse. -/
theorem witness_consistent_start :
    Consistent (issue .linkPoolSetup 1 tiny) ∧ Consistent (issue .linkPoolSetup 2 tiny) ∧
      Consistent (issue .linkPoolSetup 2 (refusing tiny)) := by
  refine ⟨?_, ?_, ?_⟩ <;>
    refine consistent_at_start (by decide +kernel) (by decide +kernel) (by decide +kernel) (by decide +kernel) ?_ (by decide +kernel)
      (fun k _ i _ => rings_untouched rfl k i) ?_ ?_ ?_
  all_goals first
    | (unfold LiveOk; decide +kernel)
    | (unfold TablesOk BankOk; decide +kernel)
    | (unfold PoolAtRest NoIdleRing; rw [if_neg (by decide +kernel)]; decide +kernel)
    | (unfold OwnershipOk; decide +kernel)

/-- A machine with a valid pool is consistent: `LINK_POOL_CLEANUP` accepted with the idle list in a ring. -/
theorem witness_consistent_ring_pool : Consistent (issue .linkPoolCleanup 0 smallRingPool) := by
  have hq : (issue .linkPoolCleanup 0 smallRingPool).pool.idlePath = .inRing := by decide +kernel
  refine consistent_at_start (by decide +kernel) (by decide +kernel) (by decide +kernel) (by decide +kernel) ?_ (by decide +kernel) ?_ ?_ ?_ ?_
  · unfold LiveOk; decide +kernel
  · unfold RingOk; decide +kernel
  · unfold TablesOk BankOk; decide +kernel
  · unfold PoolAtRest ValidPool
    rw [if_pos (by decide +kernel), hq]
    unfold IdleRing
    decide +kernel
  · unfold OwnershipOk; decide +kernel

/-- A machine with a valid pool is consistent: `LINK_POOL_CLEANUP` accepted with the idle list in scatter buffers. -/
theorem witness_consistent_scatter_pool : Consistent (issue .linkPoolCleanup 0 smallScatterPool) := by
  have hq : (issue .linkPoolCleanup 0 smallScatterPool).pool.idlePath = .scatter := by decide +kernel
  refine consistent_at_start (by decide +kernel) (by decide +kernel) (by decide +kernel) (by decide +kernel) ?_ (by decide +kernel)
    (fun k _ i _ => rings_untouched (by decide +kernel) k i) ?_ ?_ ?_
  · unfold LiveOk; decide +kernel
  · unfold TablesOk BankOk; decide +kernel
  · unfold PoolAtRest ValidPool
    rw [if_pos (by decide +kernel), hq]
    unfold NoIdleRing
    decide +kernel
  · unfold OwnershipOk; decide +kernel

/-- PoolSetupOutcome: with `witness_consistent_start` and `accepted_issue`, its other hypotheses, and both of its clauses. -/
theorem witness_poolSetup_outcome :
    tiny.pool.valid = false ∧ planTotal Config.tiny 1 = some 16 ∧ planTotal Config.tiny 2 = some 32 ∧
      (refusing tiny).pool.valid = false ∧ ringSize Config.tiny idleClass 16 ≤ wordMax ∧
      reaches (exec .linkPoolSetup (issue .linkPoolSetup 1 tiny)) (fun t => t.hist.all fun e => agreed e.op) = true ∧
      reaches (exec .linkPoolSetup (issue .linkPoolSetup 2 (refusing tiny)))
        (fun t => !(t.hist.all fun e => agreed e.op)) = true := by decide +kernel

/-- PoolSetupPublishesEveryDescriptor: a successful run on either path. -/
theorem witness_poolSetup_succeeds :
    reaches (exec .linkPoolSetup (issue .linkPoolSetup 1 tiny)) (fun t => t.err == .ok && t.pool.idlePath == .inRing) = true ∧
      reaches (exec .linkPoolSetup (issue .linkPoolSetup 2 tiny))
        (fun t => t.err == .ok && t.pool.idlePath == .scatter) = true ∧
      (issue .linkPoolSetup 1 tiny).hist = [] ∧ (issue .linkPoolSetup 2 tiny).hist = [] := by decide +kernel

/-- PoolSetupSucceedsWithTheReferenceHost: the hypotheses on the environment. -/
theorem witness_poolSetup_reference :
    let s := issue .linkPoolSetup 1 tiny
    s.pool.valid = false ∧ planTotal s.cfg 1 = some 16 ∧ idlePathFor s.cfg 16 = .inRing ∧
      ringSize s.cfg idleClass 16 ≤ wordMax ∧ 41 ∉ s.engReg ∧ s.env.reference = some {} ∧ ({} : RefEnv).alloc = [] ∧
      ({} : RefEnv).engine = [] ∧ s.live = [] ∧ ({} : RefEnv).cursor + poolRoom s.cfg 16 ≤ addressSpace := by
  decide +kernel

/-! ## Witnesses: the dispatcher commands -/

/-- AttachWhenAttachedFails. -/
theorem witness_attach_again :
    (issue .dispAttach 0 attached).seq.pos = .start ∧ (issue .dispAttach 0 attached).disp.attached = true := by
  decide +kernel

/-- AttachRegistersEverySource and AttachStartsThePollTimer. -/
theorem witness_attach :
    (let s := issue .dispAttach 0 (start .ref .event)
    configValid s.cfg = true ∧ s.seq.pos = .start ∧ s.disp.attached = false ∧ s.mode = .event ∧
      s.disp.irqReg.length ≤ 19 ∧ (tableSources s.cfg).length = 10) ∧
    (let s := issue .dispAttach 0 (start .ref .poll)
    configValid s.cfg = true ∧ s.seq.pos = .start ∧ s.disp.attached = false ∧ s.mode = .poll ∧ s.disp.irqReg = []) := by
  decide +kernel

/-- DetachWhenNotAttachedDoesNothing. -/
theorem witness_detach_unattached :
    (issue .dispDetach 0 tiny).seq.pos = .start ∧ (issue .dispDetach 0 tiny).disp.attached = false := by decide +kernel

/-- DetachFreesEverySource: no context busy, and a context busy. -/
theorem witness_detach_event :
    (let s := issue .dispDetach 0 attached
    configValid s.cfg = true ∧ s.seq.pos = .start ∧ s.disp.attached = true ∧ s.mode = .event ∧
      s.disp.irqReg.length ≤ 19 ∧ ∀ c < s.cfg.numCtx, (s.ctx c).busy = false) ∧
    (let s := issue .dispDetach 0 serving
    configValid s.cfg = true ∧ s.seq.pos = .start ∧ s.disp.attached = true ∧ s.mode = .event ∧
      s.disp.irqReg.length ≤ 19 ∧ ∃ c < s.cfg.numCtx, (s.ctx c).busy = true) := by decide +kernel

/-- DetachStopsThePollTimer: timer running, and a pass under way. -/
theorem witness_detach_poll :
    (let s := issue .dispDetach 0 polling
    configValid s.cfg = true ∧ s.seq.pos = .start ∧ s.disp.attached = true ∧ s.mode = .poll ∧
      s.disp.timer ≠ .stopped) ∧
    (let s := issue .dispDetach 0 inPass
    configValid s.cfg = true ∧ s.seq.pos = .start ∧ s.disp.attached = true ∧ s.mode = .poll ∧
      s.disp.timer = .stopped) := by decide +kernel

/-! ## Witnesses: service, events, the poll pass -/

/-- ServiceOfUnknownContextFails, at the first number out of range, and ServiceWaitsForABusyContext. -/
theorem witness_service_stops :
    (issue (.service 4) 1 attached).cfg.numCtx ≤ 4 ∧
      (let s := issue (.service 0) 1 serving
      s.seq.pos = .start ∧ 0 < s.cfg.numCtx ∧ (s.ctx 0).busy = true) := by decide +kernel

/-- ServiceDrainsInPriorityOrder, at the last context, and ServiceOfEmptyMasksCallsNothing. -/
theorem witness_service :
    (let s := issue (.service 3) 1 attached
    configValid s.cfg = true ∧ 3 < s.cfg.numCtx ∧ (s.ctx 3).busy = false) ∧
    (let s := issue (.service 3) 1 tiny
    configValid s.cfg = true ∧ 3 < s.cfg.numCtx ∧ (s.ctx 3).busy = false ∧ (s.ctx 3).txMask = 0 ∧
      (s.ctx 3).rxDstMask = 0 ∧ (s.ctx 3).rxExcMask = 0 ∧ (s.ctx 3).rxRelMask = 0 ∧ (s.ctx 3).reoMask = 0) := by
  decide +kernel

/-- EventsRequestInvocations: a lost event, a delivered one, a coalesced one. -/
theorem witness_events :
    (let s := turn (.irq 33) attached
    configValid s.cfg = true ∧ s.env.moves = [.irq 33] ∧ ∀ r ∈ s.disp.irqReg, r.source.toNat ≠ 33) ∧
    (let s := turn (.irq 32) attached
    s.env.moves = [.irq 32] ∧ ((s.disp.irqReg.find? (fun r => r.source.toNat == 32)).map fun r =>
      (s.ctx r.ctx.toNat).pend) = some false) ∧
    (let s := turn (.irq 32) (deliver 32 attached)
    s.env.moves = [.irq 32] ∧ ((s.disp.irqReg.find? (fun r => r.source.toNat == 32)).map fun r =>
      (s.ctx r.ctx.toNat).pend) = some true) := by decide +kernel

/-- PendingInvocationsStart: each clause. -/
theorem witness_pending :
    (let s := turn (.svc 0) (after (exec (.service 0) (issue (.service 0) 1 attached)) attached)
    configValid s.cfg = true ∧ s.env.moves = [.svc 0] ∧ 0 < s.cfg.numCtx ∧ (s.ctx 0).busy = false ∧
      (s.ctx 0).pend = false) ∧
    (let s := turn (.svc 0) (pollStep inPass)
    configValid s.cfg = true ∧ s.env.moves = [.svc 0] ∧ (s.ctx 0).busy = true ∧ (s.ctx 0).runner ≠ .svc) ∧
    (let s := turn (.svc 3) (deliver 11 attached)
    configValid s.cfg = true ∧ s.env.moves = [.svc 3] ∧ 3 < s.cfg.numCtx ∧ (s.ctx 3).busy = false ∧
      (s.ctx 3).pend = true) := by decide +kernel

/-- InvocationsEnd: an invocation under way, and one about to start. -/
theorem witness_invocation :
    (configValid serving.cfg = true ∧ 0 < serving.cfg.numCtx ∧ (serving.ctx 0).busy = true ∧
      (serving.ctx 0).runner = .svc) ∧
    (let s := deliver 11 attached
    configValid s.cfg = true ∧ 3 < s.cfg.numCtx ∧ (s.ctx 3).busy = false ∧ (s.ctx 3).pend = true) := by decide +kernel

/-- TimerFiresOnlyWhileRunning: a running timer, a stopped one, none. -/
theorem witness_timer :
    configValid polling.cfg = true ∧ (turn .timerFire polling).env.moves = [.timerFire] ∧
      polling.disp.timer = .running ∧ inPass.disp.timer = .stopped ∧ attached.disp.timer = .none := by decide +kernel

/-- PollPassesEnd. -/
theorem witness_pass :
    configValid inPass.cfg = true ∧ inPass.poll = .claim 0 ∧ 0 < inPass.cfg.numCtx ∧
      ∀ d < inPass.cfg.numCtx, (inPass.ctx d).busy = false := by decide +kernel

/-! ## Witnesses: registers, reset, whole-machine statements -/

/-- WindowsShowTheirRecords, at the last place of each table that TINY has. -/
theorem witness_windows :
    slotExists Config.tiny 6 0 = true ∧ 7 < Config.tiny.maxLinkDescBanks ∧ 7 < Config.tiny.maxScatterBufs ∧
      3 < Config.tiny.numCtx := by decide +kernel

/-- ResetLeavesTheResetState; it is also a step of the statements that exclude reset by hypothesis. -/
theorem witness_reset_move :
    let s := turn (.reset .poll) ringPool
    configValid s.cfg = true ∧ s.env.moves = [.reset .poll] := by decide +kernel

/-- StepKeepsMemoryCanonical and FaultBitsAreSticky: a step from a state whose memory is not empty, with both bits set. -/
theorem witness_step :
    let s := turn .command { issue .linkPoolCleanup 0 ringPool with handlerOverrun := true, cmdOverrun := true }
    Memory.wf s.mem = true ∧ s.mem.length = 128 ∧ reaches (step s) (fun _ => true) = true ∧
      (takeMove s).1 = .command := by decide +kernel

/-- The clauses of `WiringOk` that name no position, from their decidable parts. -/
theorem wiring_of_parts {s : State} {P : Prop} (hl : s.disp.irqReg.length ≤ 19) (hn : (irqHandles s).Nodup)
    (h0 : 0 ∉ irqHandles s) (hp : ∀ c < 16, (s.ctx c).pend = false) (h : P) :
    s.disp.irqReg.length ≤ 19 ∧ (irqHandles s).Nodup ∧ 0 ∉ irqHandles s ∧
      (∀ c, s.cfg.numCtx ≤ c → (s.ctx c).pend = false) ∧ P :=
  ⟨hl, hn, h0, fun c _ => if hc : c < 16 then hp c hc else by simp [State.ctx, hc], h⟩

/-- StepKeepsTheDispatcherInOrder: a machine in event mode with an invocation running, and one in poll mode with a pass
running. -/
theorem witness_dispatch :
    DispatchOk (turn (.svc 0) serving) ∧ DispatchOk (turn .poll (pollStep inPass)) := by
  have h1 : (turn (.svc 0) serving).mode = .event ∧ (turn (.svc 0) serving).seq.pos = .idle ∧
      (turn (.svc 0) serving).poll = .idle := by decide +kernel
  have h2 : (turn .poll (pollStep inPass)).mode = .poll ∧ (turn .poll (pollStep inPass)).seq.pos = .idle ∧
      (turn .poll (pollStep inPass)).poll = .serving 0 := by decide +kernel
  refine ⟨⟨?_, ?_, ?_, ?_, ?_⟩, ⟨?_, ?_, ?_, ?_, ?_⟩⟩
  · unfold SeqOk; rw [h1.2.1]; decide +kernel
  · unfold ModeOk; rw [h1.1, h1.2.1]; decide +kernel
  · unfold ContextsOk CtxOk; rw [h1.2.1, h1.2.2]; decide +kernel
  · unfold PassOk; rw [h1.2.1, h1.2.2]; decide +kernel
  · unfold WiringOk; rw [h1.1, h1.2.1]; unfold TableMasks EmptyMasks NonePending
    exact wiring_of_parts (by decide +kernel) (by decide +kernel) (by decide +kernel) (by decide +kernel) (by decide +kernel)
  · unfold SeqOk; rw [h2.2.1]; decide +kernel
  · unfold ModeOk; rw [h2.1, h2.2.1]; decide +kernel
  · unfold ContextsOk CtxOk; rw [h2.2.1, h2.2.2]; decide +kernel
  · unfold PassOk; rw [h2.2.1, h2.2.2]; decide +kernel
  · unfold WiringOk; rw [h2.1, h2.2.1]; unfold TableMasks EmptyMasks NonePending
    exact wiring_of_parts (by decide +kernel) (by decide +kernel) (by decide +kernel) (by decide +kernel) (by decide +kernel)

/-- StepKeepsTheMachineConsistent, ConsistentMachineStopsOnlyOnBreaches, CommandsFinishOrAreHeld and
RunOfACommandIsItsSteps: with the consistent states above, a step that answers and a command's word. -/
theorem witness_consistent_step :
    reaches (exec .linkPoolCleanup (issue .linkPoolCleanup 0 smallScatterPool)) (fun _ => true) = true ∧
      reaches (seqAgentStep (issue .linkPoolCleanup 0 smallScatterPool)) (fun _ => true) = true ∧
      (issue .linkPoolCleanup 0 smallScatterPool).disp.irqReg.length ≤ 19 ∧
      decode (issue .linkPoolCleanup 0 smallScatterPool).cmd = .ok .linkPoolCleanup ∧
      ¬CleanupWhileServiced .linkPoolCleanup (issue .linkPoolCleanup 0 smallScatterPool) := by
  simp only [cleanupWhileServiced_iff]
  decide +kernel

/-- ConsistentMachineStopsOnlyOnBreaches: the refusal it leaves is met, inside an unpublished idle list. -/
theorem witness_foreign_write :
    let s := after (seqSteps 6 (issue .linkPoolSetup 1 tiny)) tiny
    s.seq.pos = .accessStart ∧
      inUnpublishedList s ((s.ring idleClass 0).rawPa.toNat) = true := by decide +kernel

/-- ResetIsConsistent. -/
theorem witness_reset_configuration : configValid Config.ref = true ∧ configValid Config.tiny = true := by decide +kernel

end Sys2Proof.Tests
end

namespace Sys2Proof.Machine

/-! ## Arithmetic (R18, R19) -/

/-- R18's formula rounds up: `alignUp` is the library's ceiling division times the alignment. -/
theorem alignUp_eq_ceilDiv_mul (x a : Nat) : alignUp x a = x ⌈/⌉ a * a := by
  rw [alignUp, Nat.ceilDiv_eq_add_pred_div]

theorem alignUp_mod (x a : Nat) : alignUp x a % a = 0 := Nat.mul_mod_left _ a

theorem le_alignUp {a : Nat} (ha : 0 < a) (x : Nat) : x ≤ alignUp x a := by
  rw [alignUp_eq_ceilDiv_mul, mul_comm]
  exact le_smul_ceilDiv ha

/-- No multiple of the alignment at or above `x` lies below `alignUp x a`. -/
theorem alignUp_le_of_le_of_mod {x a y : Nat} (ha : 0 < a) (hxy : x ≤ y) (hy : y % a = 0) : alignUp x a ≤ y := by
  obtain ⟨q, rfl⟩ := Nat.dvd_of_mod_eq_zero hy
  rw [alignUp_eq_ceilDiv_mul, mul_comm]
  exact Nat.mul_le_mul_left a ((ceilDiv_le_iff_le_mul ha).mpr hxy)

theorem alignUp_le_add (x a : Nat) : alignUp x a ≤ x + a - 1 := Nat.div_mul_le_self _ a

/-- Clearing the low `k` bits of a number that fits the width is rounding it down to a multiple of `2 ^ k`. -/
theorem toNat_and_not_two_pow_sub_one {v n : Nat} (k : Nat) (hv : v < 2 ^ n) :
    (BitVec.ofNat n v &&& ~~~(BitVec.ofNat n (2 ^ k - 1))).toNat = v / 2 ^ k * 2 ^ k := by
  refine Nat.eq_of_testBit_eq fun i => ?_
  have hout (h : n ≤ i) : v.testBit i = false :=
    Nat.testBit_lt_two_pow (hv.trans_le (Nat.pow_le_pow_right Nat.two_pos h))
  rw [BitVec.testBit_toNat, BitVec.getLsbD_and, BitVec.getLsbD_not, BitVec.getLsbD_ofNat, BitVec.getLsbD_ofNat,
    Nat.testBit_two_pow_sub_one, Nat.testBit_mul_two_pow, Nat.testBit_div_two_pow]
  by_cases hi : i < n
  · by_cases hk : i < k
    · simp [hi, hk]
    · simp [hi, hk, Nat.le_of_not_lt hk, Nat.sub_add_cancel]
  · by_cases hk : k ≤ i
    · simp [hi, hk, hout (Nat.le_of_not_lt hi)]
    · simp [hi, hk]

/-- Settles O10: the masked sum is the rounding down of `x + 2 ^ k - 1`, and that is the ceiling division of `x`. -/
theorem alignUpIsTheLeastMultiple : Obligations.AlignUpIsTheLeastMultiple := by
  intro x k n hfit
  have hpos : 0 < 2 ^ k := Nat.two_pow_pos k
  have hle : alignUp x (2 ^ k) ≤ x + 2 ^ k - 1 := alignUp_le_add x _
  refine ⟨?_, alignUp_mod x _, le_alignUp hpos x, by omega, fun y => alignUp_le_of_le_of_mod hpos⟩
  exact (toNat_and_not_two_pow_sub_one k (by omega)).symm

theorem exists_pow2Ceil_eq (n : Nat) : ∃ k, pow2Ceil n = 2 ^ k := by
  unfold pow2Ceil
  split
  · exact ⟨0, rfl⟩
  · exact ⟨_, rfl⟩

/-- What R19 asks for in one equivalence: `pow2Ceil n` and `n` lie below the same powers of two. -/
theorem pow2Ceil_le_two_pow_iff (n k : Nat) : pow2Ceil n ≤ 2 ^ k ↔ n ≤ 2 ^ k := by
  have hpos : 1 ≤ 2 ^ k := Nat.one_le_two_pow
  unfold pow2Ceil
  split
  · omega
  · next hn =>
    have hlog : (n - 1).log2 < k ↔ n - 1 < 2 ^ k := Nat.log2_lt (by omega)
    rw [Nat.pow_le_pow_iff_right (by decide), Nat.succ_le_iff, hlog]
    omega

theorem le_pow2Ceil (n : Nat) : n ≤ pow2Ceil n := by
  obtain ⟨k, hk⟩ := exists_pow2Ceil_eq n
  rw [hk]
  exact (pow2Ceil_le_two_pow_iff n k).mp hk.le

theorem pow2Ceil_two_pow (k : Nat) : pow2Ceil (2 ^ k) = 2 ^ k :=
  le_antisymm ((pow2Ceil_le_two_pow_iff _ k).mpr le_rfl) (le_pow2Ceil _)

/-- Settles O11, from `pow2Ceil_le_two_pow_iff`. -/
theorem powerOfTwoCeilingIsTheLeast : Obligations.PowerOfTwoCeilingIsTheLeast :=
  ⟨fun n => ⟨exists_pow2Ceil_eq n, le_pow2Ceil n, fun k => (pow2Ceil_le_two_pow_iff n k).mpr⟩,
    by decide, by decide, by decide, by decide, pow2Ceil_two_pow⟩

end Sys2Proof.Machine

namespace Sys2Proof.Machine

/-! ## What no step but reset changes (R10, R283)

One lemma per operation, in the order of the model's files. As `simp` lemmas they read the configuration and the mode
through every operation. -/

/-- The configuration and the mode are the same in both states. -/
@[simp] abbrev SameSetup (s t : State) : Prop := t.cfg = s.cfg ∧ t.mode = s.mode

/-- The outcome keeps configuration and mode where it is a state, and is no refusal of the configuration. -/
def KeepsSetup (s : State) : Out → Prop
  | .next t => SameSetup s t
  | .fault _ => True
  | .refused r => r ≠ .invalidConfiguration

@[simp] theorem keepsSetup_next (s t : State) : KeepsSetup s (.next t) ↔ SameSetup s t := Iff.rfl
@[simp] theorem keepsSetup_fault (s : State) (r : Fault) : KeepsSetup s (.fault r) := trivial
@[simp] theorem keepsSetup_refused (s : State) (r : Refusal) : KeepsSetup s (.refused r) ↔ r ≠ .invalidConfiguration :=
  Iff.rfl

/-- Only the configuration and the mode of the first state matter. -/
theorem KeepsSetup.of_sameSetup {s u : State} {o : Out} (hu : SameSetup s u) (ho : KeepsSetup u o) : KeepsSetup s o := by
  cases o with
  | next t => exact ⟨ho.1.trans hu.1, ho.2.trans hu.2⟩
  | fault r => trivial
  | refused r => exact ho

theorem KeepsSetup.andThen {s : State} {o : Out} {f : State → Out} (ho : KeepsSetup s o)
    (hf : ∀ u, SameSetup s u → KeepsSetup s (f u)) : KeepsSetup s (andThen o f) := by
  cases o with
  | next u => exact hf u ho
  | fault r => trivial
  | refused r => exact ho

/-! ### Port operations -/

@[simp] theorem hostAllocCoherent_setup (size : Nat) (s : State) : SameSetup s (hostAllocCoherent size s).2 := by
  obtain ⟨e, h⟩ | ⟨e, va, pa, -, h⟩ := hostAllocCoherent_cases size s <;> rw [h] <;> exact ⟨rfl, rfl⟩

theorem hostFreeCoherent_setup (a : Alloc) (s : State) : KeepsSetup s (hostFreeCoherent a s) := by
  unfold hostFreeCoherent
  split <;> simp

@[simp] theorem hostRegisterInterrupt_setup (source c : Nat) (s : State) :
    SameSetup s (hostRegisterInterrupt source c s) := by
  obtain ⟨e, raw, h⟩ := hostRegisterInterrupt_eq source c s
  rw [h]
  exact ⟨rfl, rfl⟩

@[simp] theorem hostFreeLastInterrupt_setup (s : State) : SameSetup s (hostFreeLastInterrupt s) := by
  obtain ⟨-, h⟩ | ⟨r, -, h⟩ := hostFreeLastInterrupt_cases s <;> rw [h] <;> exact ⟨rfl, rfl⟩

@[simp] theorem hostTimerInit_setup (s : State) : SameSetup s (hostTimerInit s) := ⟨rfl, rfl⟩
@[simp] theorem hostTimerStart_setup (a : Agent) (s : State) : SameSetup s (hostTimerStart a s) := ⟨rfl, rfl⟩
@[simp] theorem hostTimerStop_setup (s : State) : SameSetup s (hostTimerStop s) := ⟨rfl, rfl⟩
@[simp] theorem hostTimerFree_setup (s : State) : SameSetup s (hostTimerFree s) := ⟨rfl, rfl⟩

@[simp] theorem engRingRegister_setup (r : RingReq) (p : RingParams) (s : State) :
    SameSetup s (engRingRegister r p s).2 := by
  obtain ⟨e, h⟩ | ⟨e, hnd, -, h⟩ := engRingRegister_cases r p s <;> rw [h] <;> exact ⟨rfl, rfl⟩

theorem engRingUnregister_setup (h : Handle) (s : State) : KeepsSetup s (engRingUnregister h s) := by
  unfold engRingUnregister
  split <;> simp

theorem engSrcAccessStart_setup (s : State) : KeepsSetup s (engSrcAccessStart s) := by
  unfold engSrcAccessStart
  split <;> simp

theorem engSrcGetNext_setup (s : State) : KeepsSetup s (engSrcGetNext s) := by
  unfold engSrcGetNext
  split
  · simp
  · split <;> simp

@[simp] theorem engSrcAccessEnd_setup (s : State) : SameSetup s (engSrcAccessEnd s) := ⟨rfl, rfl⟩

theorem engSetLinkAddr_setup (slot desc : PAddr) (bank : Nat) (s : State) :
    KeepsSetup s (engSetLinkAddr slot bank desc s) := by
  unfold engSetLinkAddr
  split
  · simp
  · split <;> simp

theorem engPublishRing_setup {s t : State} {ok : Bool} (h : engPublishRing s = .next (ok, t)) : SameSetup s t := by
  obtain ⟨-, -, e, rfl⟩ := engPublishRing_next h
  exact ⟨rfl, rfl⟩

/-- A refused publication names no configuration. -/
theorem engPublishRing_refused {s : State} {r : Refusal} (h : engPublishRing s = .refused r) : r = .publishTooEarly := by
  unfold engPublishRing at h
  dsimp only at h
  split at h
  · exact (Host.Outcome.refused.inj h).symm
  · cases h

@[simp] theorem engPublishScatter_setup (s : State) : SameSetup s (engPublishScatter s).2 := by
  obtain ⟨e, ok, h⟩ := engPublishScatter_eq s
  rw [h]
  exact ⟨rfl, rfl⟩

/-! ### The service loop and its agents -/

@[simp] theorem startInvocation_setup (r : Runner) (budget : Word) (c : Nat) (s : State) :
    SameSetup s (startInvocation r budget c s) := ⟨rfl, rfl⟩

theorem loopStep_setup {a : Agent} {c : Nat} {s t : State} (h : loopStep a c s = some t) : SameSetup s t := by
  obtain ⟨cs, ho, hi, e, rfl⟩ := loopStep_frame h
  exact ⟨rfl, rfl⟩

@[simp] theorem endInvocation_setup (c : Nat) (s : State) : SameSetup s (endInvocation c s) := ⟨rfl, rfl⟩

@[simp] theorem deliver_setup (source : Nat) (s : State) : SameSetup s (deliver source s) := by
  unfold deliver
  split
  · exact ⟨rfl, rfl⟩
  · dsimp only
    split <;> exact ⟨rfl, rfl⟩

@[simp] theorem startPending_setup (c : Nat) (s : State) : SameSetup s (startPending c s) := ⟨rfl, rfl⟩

@[simp] theorem serviceStep_setup (a : Agent) (c : Nat) (s : State) : SameSetup s (serviceStep a c s) := by
  unfold serviceStep
  split
  · next h => exact loopStep_setup h
  · exact endInvocation_setup c s

@[simp] theorem svcStep_setup (c : Nat) (s : State) : SameSetup s (svcStep c s) := by
  unfold svcStep
  dsimp only
  split_ifs <;> simp

@[simp] theorem timerFire_setup (s : State) : SameSetup s (timerFire s) := by
  unfold timerFire
  split <;> exact ⟨rfl, rfl⟩

@[simp] theorem pollAfter_setup (c : Nat) (s : State) : SameSetup s (pollAfter c s) := ⟨rfl, rfl⟩

@[simp] theorem pollStep_setup (s : State) : SameSetup s (pollStep s) := by
  unfold pollStep
  split
  · exact ⟨rfl, rfl⟩
  · split <;> exact ⟨rfl, rfl⟩
  · split
    · next h => exact loopStep_setup h
    · exact ⟨rfl, rfl⟩
  · exact ⟨rfl, rfl⟩

/-! ### `DISP_ATTACH` and `DISP_DETACH` -/

@[simp] theorem mapContexts_setup (f : Nat → Ctx → Ctx) (s : State) : SameSetup s (mapContexts f s) := by
  obtain ⟨cs, h⟩ := mapContexts_frame f s
  rw [h]
  exact ⟨rfl, rfl⟩

@[simp] theorem assignMasks_setup (s : State) : SameSetup s (assignMasks s) := mapContexts_setup _ s
@[simp] theorem clearMasks_setup (s : State) : SameSetup s (clearMasks s) := mapContexts_setup _ s
@[simp] theorem cancelPending_setup (s : State) : SameSetup s (cancelPending s) := mapContexts_setup _ s
@[simp] theorem finishAttach_setup (s : State) : SameSetup s (finishAttach s) := ⟨rfl, rfl⟩

@[simp] theorem attachFrom_setup (r : Nat) (s : State) : SameSetup s (attachFrom r s) := by
  unfold attachFrom
  split <;> simp

@[simp] theorem registerSourceStep_setup (r : Nat) (s : State) : SameSetup s (registerSourceStep r s) := by
  simp [registerSourceStep]

@[simp] theorem timerInitStep_setup (s : State) : SameSetup s (timerInitStep s) := ⟨rfl, rfl⟩
@[simp] theorem timerStartStep_setup (s : State) : SameSetup s (timerStartStep s) := ⟨rfl, rfl⟩

@[simp] theorem finishDetach_setup (s : State) : SameSetup s (finishDetach s) := by simp [finishDetach]

@[simp] theorem detachFrom_setup (s : State) : SameSetup s (detachFrom s) := by
  unfold detachFrom
  split <;> simp

@[simp] theorem freeSourceStep_setup (s : State) : SameSetup s (freeSourceStep s) := by simp [freeSourceStep]
@[simp] theorem timerStopStep_setup (s : State) : SameSetup s (timerStopStep s) := ⟨rfl, rfl⟩
@[simp] theorem timerFreeStep_setup (s : State) : SameSetup s (timerFreeStep s) := by simp [timerFreeStep]

/-! ### `PoolUnwind` -/

@[simp] theorem finishUnwind_setup (s : State) : SameSetup s (finishUnwind s) := ⟨rfl, rfl⟩

@[simp] theorem unwindMemory_setup (s : State) : SameSetup s (unwindMemory s) := by
  unfold unwindMemory
  split_ifs <;> simp

@[simp] theorem startUnwind_setup (e : Err) (s : State) : SameSetup s (startUnwind e s) := by
  unfold startUnwind
  dsimp only
  split <;> simp

theorem unwindScatterStep_setup (s : State) : KeepsSetup s (unwindScatterStep s) :=
  (hostFreeCoherent_setup _ s).andThen fun u hu => by simpa using hu

theorem unwindBankStep_setup (s : State) : KeepsSetup s (unwindBankStep s) :=
  (hostFreeCoherent_setup _ s).andThen fun u hu => by simpa using hu

/-! ### `RingSetup` and `RingCleanup` -/

@[simp] theorem ringFail_setup (e : Err) (s : State) : SameSetup s (ringFail e s) := by
  unfold ringFail
  split <;> simp

@[simp] theorem ringEnter_setup (r : RingReq) (s : State) : SameSetup s (ringEnter r s) := by
  unfold ringEnter
  split <;> simp

@[simp] theorem ringAllocStep_setup (r : RingReq) (s : State) : SameSetup s (ringAllocStep r s) := by
  have h := hostAllocCoherent_setup (ringSize s.cfg r.cls r.entries) s
  unfold ringAllocStep
  split <;> next heq => rw [heq] at h; simpa using h

@[simp] theorem ringReturn_setup (r : RingReq) (s : State) : SameSetup s (ringReturn r s) := by
  unfold ringReturn
  split <;> simp

@[simp] theorem clearProducer_setup (k : Nat) (s : State) : SameSetup s (clearProducer k s) := by
  unfold clearProducer
  split <;> simp

@[simp] theorem ringRegisterStep_setup (r : RingReq) (a : Alloc) (s : State) : SameSetup s (ringRegisterStep r a s) := by
  have h := engRingRegister_setup r (ringParams (ringRecord s.cfg r a 0)) s
  unfold ringRegisterStep
  split <;> next heq => rw [heq] at h; simpa using h

theorem ringRejectStep_setup (a : Alloc) (s : State) : KeepsSetup s (ringRejectStep a s) :=
  (hostFreeCoherent_setup _ s).andThen fun u hu => by simpa using hu

theorem ringUnregisterStep_setup (k i : Nat) (s : State) : KeepsSetup s (ringUnregisterStep k i s) :=
  (engRingUnregister_setup _ s).andThen fun u hu => by simpa using hu

@[simp] theorem ringCleanupReturn_setup (s : State) : SameSetup s (ringCleanupReturn s) := by
  unfold ringCleanupReturn
  split <;> simp

theorem ringFreeStep_setup (k i : Nat) (s : State) : KeepsSetup s (ringFreeStep k i s) :=
  (hostFreeCoherent_setup _ s).andThen fun u hu => by simpa using hu

/-! ### `LINK_POOL_SETUP` -/

@[simp] theorem afterBanks_setup (s : State) : SameSetup s (afterBanks s) := by
  unfold afterBanks
  split <;> simp

@[simp] theorem bankAllocStep_setup (b : Nat) (s : State) : SameSetup s (bankAllocStep b s) := by
  have h := hostAllocCoherent_setup (bankSize s.cfg (poolTotal s) b) s
  unfold bankAllocStep
  split
  · next heq => rw [heq] at h; simpa using h
  · next heq =>
    rw [heq] at h
    dsimp only
    split <;> simpa using h

theorem accessStartStep_setup (s : State) : KeepsSetup s (accessStartStep s) :=
  (engSrcAccessStart_setup s).andThen fun u hu => by simpa using hu

theorem getNextStep_setup (b j : Nat) (s : State) : KeepsSetup s (getNextStep b j s) :=
  (engSrcGetNext_setup s).andThen fun u hu => by simpa using hu

theorem setLinkStep_setup (slot : PAddr) (b j : Nat) (s : State) : KeepsSetup s (setLinkStep slot b j s) := by
  unfold setLinkStep
  split
  · simp
  · refine (engSetLinkAddr_setup _ _ _ s).andThen fun u hu => ?_
    split <;> simpa using hu

@[simp] theorem accessEndStep_setup (s : State) : SameSetup s (accessEndStep s) := ⟨rfl, rfl⟩
@[simp] theorem finishPool_setup (s : State) : SameSetup s (finishPool s) := ⟨rfl, rfl⟩

theorem publishRingStep_setup (s : State) : KeepsSetup s (publishRingStep s) := by
  unfold publishRingStep
  split
  · next h => simpa using engPublishRing_setup h
  · next h => simpa using engPublishRing_setup h
  · simp
  · next h => simp [engPublishRing_refused h]

@[simp] theorem scatterAllocStep_setup (n : Nat) (s : State) : SameSetup s (scatterAllocStep n s) := by
  have h := hostAllocCoherent_setup s.cfg.scatterBufSize s
  unfold scatterAllocStep
  split
  · next heq => rw [heq] at h; simpa using h
  · next heq =>
    rw [heq] at h
    dsimp only
    split <;> simpa using h

theorem scatterLinkStep_setup (b j : Nat) (s : State) : KeepsSetup s (scatterLinkStep b j s) := by
  refine (engSetLinkAddr_setup _ _ _ s).andThen fun u hu => ?_
  split <;> simpa using hu

@[simp] theorem publishScatterStep_setup (s : State) : SameSetup s (publishScatterStep s) := by
  have h := engPublishScatter_setup s
  unfold publishScatterStep
  split <;> next heq => rw [heq] at h; simpa using h

/-! ### The sequencer -/

@[simp] theorem serviceClaimStep_setup (c : Nat) (s : State) : SameSetup s (serviceClaimStep c s) := ⟨rfl, rfl⟩

@[simp] theorem servingStep_setup (c : Nat) (s : State) : SameSetup s (servingStep c s) := by
  unfold servingStep
  split
  · next h => exact loopStep_setup h
  · exact ⟨rfl, rfl⟩

theorem posStep_setup (s : State) : KeepsSetup s (posStep s) := by
  unfold posStep
  split
  exacts [⟨rfl, rfl⟩, ⟨rfl, rfl⟩, ringAllocStep_setup _ s, ringRegisterStep_setup _ _ s, ringRejectStep_setup _ s,
    ringUnregisterStep_setup _ _ s, ringFreeStep_setup _ _ s, bankAllocStep_setup _ s, accessStartStep_setup s,
    getNextStep_setup _ _ s, setLinkStep_setup _ _ _ s, accessEndStep_setup s, publishRingStep_setup s,
    scatterAllocStep_setup _ s, scatterLinkStep_setup _ _ s, publishScatterStep_setup s, unwindScatterStep_setup s,
    unwindBankStep_setup s, registerSourceStep_setup _ s, timerInitStep_setup s, timerStartStep_setup s,
    freeSourceStep_setup s, finishDetach_setup s, timerStopStep_setup s, timerFreeStep_setup s,
    serviceClaimStep_setup _ s, servingStep_setup _ s]

theorem seqStep_setup (s : State) : KeepsSetup s (seqStep s) := by
  unfold seqStep
  split
  · simp
  · exact posStep_setup s

theorem runSeq_setup (n : Nat) (s : State) : KeepsSetup s (runSeq n s) := by
  induction n generalizing s with
  | zero => exact ⟨rfl, rfl⟩
  | succ n ih =>
    unfold runSeq
    split
    · simp
    · exact (seqStep_setup s).andThen fun u hu => (ih u).of_sameSetup hu

theorem runCommand_setup {begin : State → State} {s : State} (h : SameSetup s (begin s)) :
    KeepsSetup s (runCommand begin s) := by
  unfold runCommand
  split
  · exact (runSeq_setup _ _).of_sameSetup h
  · exact runSeq_setup _ s

@[simp] theorem beginNop_setup (s : State) : SameSetup s (beginNop s) := ⟨rfl, rfl⟩

@[simp] theorem beginRingSetup_setup (cls inst owner : Nat) (s : State) :
    SameSetup s (beginRingSetup cls inst owner s) := by
  unfold beginRingSetup
  dsimp only
  split <;> simp

@[simp] theorem beginRingCleanup_setup (cls inst : Nat) (s : State) : SameSetup s (beginRingCleanup cls inst s) := by
  unfold beginRingCleanup
  dsimp only
  split_ifs <;> simp

@[simp] theorem beginLinkPoolSetup_setup (s : State) : SameSetup s (beginLinkPoolSetup s) := by
  unfold beginLinkPoolSetup
  dsimp only
  split
  · simp
  · split <;> simp

@[simp] theorem beginLinkPoolCleanup_setup (s : State) : SameSetup s (beginLinkPoolCleanup s) := by
  simp [beginLinkPoolCleanup]

@[simp] theorem beginDispAttach_setup (s : State) : SameSetup s (beginDispAttach s) := by
  unfold beginDispAttach
  dsimp only
  split
  · simp
  · split <;> simp

@[simp] theorem beginDispDetach_setup (s : State) : SameSetup s (beginDispDetach s) := by
  unfold beginDispDetach
  dsimp only
  split
  · split <;> simp
  · simp

@[simp] theorem beginService_setup (ctx : Nat) (s : State) : SameSetup s (beginService ctx s) := by
  unfold beginService
  dsimp only
  split <;> simp

@[simp] theorem beginCommand_setup (i : Instr) (s : State) : SameSetup s (beginCommand i s) := by
  unfold beginCommand
  split <;> simp

theorem exec_setup (i : Instr) (s : State) : KeepsSetup s (exec i s) := by
  rw [exec_eq]
  exact runCommand_setup (beginCommand_setup i s)

theorem seqAgentStep_setup (s : State) : KeepsSetup s (seqAgentStep s) := by
  unfold seqAgentStep
  split
  · split
    · split <;> simp
    · simp
  · exact seqStep_setup s

theorem runAccepted_setup (s : State) : KeepsSetup s (runAccepted s) := by
  unfold runAccepted
  split
  · split
    · split
      · simp
      · exact exec_setup _ s
    · simp
  · simp

/-! ### Host accesses, the world, the step -/

@[simp] theorem writeCmd_setup (w : Word) (s : State) : SameSetup s (writeCmd w s) := by
  unfold writeCmd
  split <;> simp

@[simp] theorem hostWrite_setup (width offset : Nat) (v : Word) (s : State) : SameSetup s (hostWrite width offset v s) := by
  unfold hostWrite
  split
  · split <;> simp
  · simp

@[simp] theorem hostWriteAt_setup (width address : Nat) (v : Word) (s : State) :
    SameSetup s (hostWriteAt width address v s) := by
  unfold hostWriteAt
  split <;> simp

@[simp] theorem hostReadAt_setup (width address : Nat) (s : State) : SameSetup s (hostReadAt width address s) := by
  unfold hostReadAt
  split <;> exact ⟨rfl, rfl⟩

theorem extWrite_setup (x : PAddr) (v : Byte) (s : State) : KeepsSetup s (extWrite x v s) := by
  unfold extWrite
  split <;> simp

@[simp] theorem setReference_setup (f : RefEnv → RefEnv) (s : State) : SameSetup s (setReference f s) := ⟨rfl, rfl⟩

@[simp] theorem takeMove_setup (s : State) : SameSetup s (takeMove s).2 := by
  unfold takeMove
  split <;> exact ⟨rfl, rfl⟩

@[simp] theorem systemReset_cfg (strap : Mode) (s : State) : (systemReset strap s).cfg = s.cfg := rfl
@[simp] theorem systemReset_mode (strap : Mode) (s : State) : (systemReset strap s).mode = strap := rfl

/-- Every move but reset keeps configuration and mode, and no move is refused for the configuration. -/
theorem applyMove_setup {m : Move} (hm : ∀ strap, m ≠ .reset strap) (s : State) : KeepsSetup s (applyMove m s) := by
  cases m with
  | reset strap => exact absurd rfl (hm strap)
  | command => exact runAccepted_setup s
  | seq => exact seqAgentStep_setup s
  | extWrite x v => exact extWrite_setup x v s
  | hostWrite width address v => exact hostWriteAt_setup width address v s
  | hostRead width address => exact hostReadAt_setup width address s
  | irq source => exact deliver_setup source s
  | timerFire => exact timerFire_setup s
  | svc c => exact svcStep_setup c s
  | poll => exact pollStep_setup s
  | refAlloc answers => exact setReference_setup _ s
  | refEngine answers => exact setReference_setup _ s
  | refPending ring count => exact setReference_setup _ s

/-- No move is refused for the configuration: that refusal is the step's own test (R15). -/
theorem applyMove_ne_invalidConfiguration (m : Move) (s : State) : applyMove m s ≠ .refused .invalidConfiguration := by
  intro h
  cases m with
  | reset strap => cases h
  | _ =>
    have hk := h ▸ applyMove_setup (by simp) s
    exact (keepsSetup_refused s _).mp hk rfl

theorem step_of_configValid {s : State} (h : configValid s.cfg = true) :
    step s = applyMove (takeMove s).1 (takeMove s).2 := by simp [step, h]

theorem step_refuses_configuration_iff (s : State) :
    step s = .refused .invalidConfiguration ↔ ¬configValid s.cfg = true := by
  constructor
  · intro h hv
    exact applyMove_ne_invalidConfiguration _ _ ((step_of_configValid hv).symm.trans h)
  · intro h
    simp [step, h]

/-- A step that answers is its move, made under a valid configuration. -/
theorem step_next {s t : State} (h : step s = .next t) :
    configValid s.cfg = true ∧ applyMove (takeMove s).1 (takeMove s).2 = .next t := by
  unfold step at h
  split at h
  · next hv => exact ⟨hv, h⟩
  · cases h

theorem step_setup {s t : State} (h : step s = .next t) (hm : ∀ strap, (takeMove s).1 ≠ .reset strap) :
    SameSetup s t := by
  have hk := applyMove_setup hm (takeMove s).2
  rw [(step_next h).2] at hk
  exact KeepsSetup.of_sameSetup (o := .next t) (takeMove_setup s) hk

theorem step_reset {s t : State} {strap : Mode} (h : step s = .next t) (hm : (takeMove s).1 = .reset strap) :
    t = systemReset strap (takeMove s).2 := by
  have ha := (step_next h).2
  rw [hm] at ha
  exact (Host.Outcome.next.inj ha).symm

/-- Settles O52: reset keeps the configuration and samples the strap; every other move keeps both (`applyMove_setup`). -/
theorem stepKeepsConfigurationAndMode : Obligations.StepKeepsConfigurationAndMode := by
  intro s t h
  refine ⟨?_, fun hm => (step_setup h hm).2, fun strap hm => by simp [step_reset h hm]⟩
  by_cases hm : ∃ strap, (takeMove s).1 = .reset strap
  · obtain ⟨strap, hm⟩ := hm
    simp [step_reset h hm]
  · exact (step_setup h (not_exists.mp hm)).1

end Sys2Proof.Machine

namespace Sys2Proof.Machine

/-! ## Valid configurations (R12, R14, R15)

Each test of `configValid` in the words of the rules. -/

theorem isPow2_iff (a : Nat) : isPow2 a = true ↔ ∃ e, a = 2 ^ e := by
  rw [isPow2, beq_iff_eq]
  constructor
  · exact fun h => ⟨_, h⟩
  · rintro ⟨e, rfl⟩
    rw [Nat.log2_two_pow]

/-- How many rings R12 gives each of the named classes. -/
def NamedInstances (c : Config) : Prop :=
  (classOf c 0).maxInst = c.numTxRings ∧ (classOf c 1).maxInst = c.numRxRings ∧
    (∀ k, 2 ≤ k → k ≤ 5 → (classOf c k).maxInst = 1) ∧ (classOf c 6).maxInst = c.numRxBufRings

theorem namedInstances_iff (c : Config) :
    NamedInstances c ↔ (List.range 7).map (fun k => (classOf c k).maxInst) =
      [c.numTxRings, c.numRxRings, 1, 1, 1, 1, c.numRxBufRings] := by
  have hmid : (∀ k, 2 ≤ k → k ≤ 5 → (classOf c k).maxInst = 1) ↔
      (classOf c 2).maxInst = 1 ∧ (classOf c 3).maxInst = 1 ∧ (classOf c 4).maxInst = 1 ∧ (classOf c 5).maxInst = 1 := by
    constructor
    · intro h
      exact ⟨h 2 (by omega) (by omega), h 3 (by omega) (by omega), h 4 (by omega) (by omega), h 5 (by omega) (by omega)⟩
    · rintro ⟨h2, h3, h4, h5⟩ k hk hk'
      interval_cases k <;> assumption
  rw [NamedInstances, hmid]
  simp [List.range_succ, and_assoc]

theorem classesValid_iff (c : Config) :
    classesValid c = true ↔
      (∀ k < 16, (∃ e, (classOf c k).align = 2 ^ e) ∧ 8 ≤ (classOf c k).align) ∧
      (∀ k < 16, (classOf c k).valid = true → 1 ≤ (classOf c k).entrySize.toNat) ∧
      (∀ k < 16, (classOf c k).valid = true → 1 ≤ (classOf c k).maxInst ∧ (classOf c k).maxInst ≤ 8) ∧
      (∀ k < 7, (classOf c k).valid = true ∧ ((classOf c k).bufferSupply = true ↔ k = 6)) ∧
      (classOf c 5).entrySize = 8 ∧ NamedInstances c := by
  have hbeq (b : Bool) (p : Prop) [Decidable p] : (b == decide p) = true ↔ (b = true ↔ p) := by
    rw [beq_iff_eq, Bool.eq_iff_iff, decide_eq_true_iff]
  have himp (b : Bool) (p : Prop) : (!b) = true ∨ p ↔ (b = true → p) := by cases b <;> simp
  rw [namedInstances_iff]
  simp only [classesValid, Bool.and_eq_true, List.all_eq_true, List.mem_range, decide_eq_true_eq, isPow2_iff,
    Bool.or_eq_true, hbeq, himp, and_assoc]
  constructor
  · rintro ⟨hrow, hnamed, hsize, hinst⟩
    exact ⟨fun k hk => ⟨(hrow k hk).1, (hrow k hk).2.1⟩, fun k hk hv => ((hrow k hk).2.2 hv).1,
      fun k hk hv => ((hrow k hk).2.2 hv).2, hnamed, hsize, hinst⟩
  · rintro ⟨halign, hentry, hmax, hnamed, hsize, hinst⟩
    exact ⟨fun k hk => ⟨(halign k hk).1, (halign k hk).2, fun hv => ⟨hentry k hk hv, hmax k hk hv⟩⟩, hnamed, hsize, hinst⟩

theorem poolParamsValid_iff (c : Config) :
    poolParamsValid c = true ↔
      (∃ e, c.linkDescAlign = 2 ^ e) ∧ 1 ≤ c.linkDescSize ∧ c.maxAllocSize ≤ 2 ^ 32 - 1 ∧
      c.linkDescSize + (c.linkDescAlign - 1) ≤ c.maxAllocSize ∧
      8 ≤ c.scatterBufSize ∧ c.scatterBufSize ≤ c.maxAllocSize ∧
      1 ≤ c.maxLinkDescBanks ∧ c.maxLinkDescBanks ≤ 256 ∧ 1 ≤ c.maxScatterBufs ∧ c.maxScatterBufs ≤ 256 ∧
      1 ≤ c.avgTidsPerClient ∧ 1 ≤ c.avgMpdusPerTid ∧ 1 ≤ c.avgFlowsPerTid ∧ 1 ≤ c.avgMsdusPerFlow ∧
      1 ≤ c.avgMsdusPerMpdu ∧ 1 ≤ c.mpduLinksPerQueueDesc ∧ 1 ≤ c.mpdusPerLinkDesc ∧ 1 ≤ c.msdusPerLinkDesc := by
  simp only [poolParamsValid, Bool.and_eq_true, isPow2_iff, decide_eq_true_eq, List.all_cons, List.all_nil, and_true,
    and_assoc]
  simp only [wordMax, idleEntrySize, Nat.reducePow, Nat.reduceSub]

/-- The ranges that R14 gives the counts of rings follow from those of R12, for the named classes have these counts. -/
theorem dispParamsValid_iff {c : Config} (hc : classesValid c = true) :
    dispParamsValid c = true ↔ 1 ≤ c.numCtx ∧ c.numCtx ≤ 16 := by
  obtain ⟨-, -, hinst, hnamed, -, htx, hrx, -, hbuf⟩ := (classesValid_iff c).mp hc
  have htx' := hinst 0 (by omega) (hnamed 0 (by omega)).1
  have hrx' := hinst 1 (by omega) (hnamed 1 (by omega)).1
  have hbuf' := hinst 6 (by omega) (hnamed 6 (by omega)).1
  simp only [dispParamsValid, Bool.and_eq_true, decide_eq_true_eq]
  omega

/-- A mask is below `2 ^ n` exactly when it has no bit at or above `n`. -/
theorem mask_lt_two_pow_iff (m : Mask) (n : Nat) : m.toNat < 2 ^ n ↔ ∀ i < 8, m.getLsbD i = true → i < n := by
  constructor
  · intro h i _ hi
    by_contra hn
    rw [← BitVec.testBit_toNat,
      Nat.testBit_lt_two_pow (h.trans_le (Nat.pow_le_pow_right Nat.two_pos (Nat.le_of_not_lt hn)))] at hi
    cases hi
  · intro h
    refine Nat.lt_pow_two_of_testBit _ fun i hi => ?_
    rw [BitVec.testBit_toNat, ← Bool.not_eq_true]
    exact fun hb => absurd (h i (BitVec.lt_of_getLsbD hb) hb) (Nat.not_lt.mpr hi)

/-- What holds of the five masks of a row by class code holds of each by name (R170). -/
theorem forall_rowMask_iff (r : MaskRow) (P : Nat → Mask → Prop) :
    (∀ k < 5, P k (rowMask r k)) ↔ P 0 r.tx ∧ P 1 r.rxDst ∧ P 2 r.rxExc ∧ P 3 r.rxRel ∧ P 4 r.reo := by
  constructor
  · intro h
    exact ⟨h 0 (by omega), h 1 (by omega), h 2 (by omega), h 3 (by omega), h 4 (by omega)⟩
  · rintro ⟨h0, h1, h2, h3, h4⟩ k hk
    interval_cases k <;> assumption

/-- The masks of one class are disjoint: the test looks at each pair of contexts once, greater number first. -/
theorem masksValid_iff (c : Config) :
    masksValid c = true ↔
      (∀ x < c.numCtx, ∀ k < 5, (rowMask (maskRow c x) k).toNat < 2 ^ (classOf c k).maxInst) ∧
      (∀ x < c.numCtx, ∀ y < c.numCtx, x ≠ y → ∀ k < 5, rowMask (maskRow c x) k &&& rowMask (maskRow c y) k = 0) := by
  simp only [masksValid, List.all_eq_true, List.mem_range, Bool.and_eq_true, decide_eq_true_eq, beq_iff_eq]
  constructor
  · intro h
    refine ⟨fun x hx k hk => (h k hk x hx).1, fun x hx y hy hne k hk => ?_⟩
    rcases Nat.lt_or_gt_of_ne hne with hlt | hlt
    · rw [BitVec.and_comm]
      exact (h k hk y hy).2 x hlt
    · exact (h k hk x hx).2 y hlt
  · rintro ⟨hbits, hdisj⟩ k hk x hx
    exact ⟨hbits x hx k hk, fun y hy => hdisj x hx y (hy.trans hx) (Nat.ne_of_gt hy) k hk⟩

/-- R15 (f), first half: no mask has a bit at or above the number of rings of its class. -/
theorem maskBits_iff {c : Config} (hc : NamedInstances c) (x : Nat) :
    (∀ k < 5, (rowMask (maskRow c x) k).toNat < 2 ^ (classOf c k).maxInst) ↔
      ∀ i < 8, ((maskRow c x).tx.getLsbD i = true → i < c.numTxRings) ∧
        ((maskRow c x).rxDst.getLsbD i = true → i < c.numRxRings) ∧
        ((maskRow c x).rxExc.getLsbD i = true → i = 0) ∧ ((maskRow c x).rxRel.getLsbD i = true → i = 0) ∧
        ((maskRow c x).reo.getLsbD i = true → i = 0) := by
  obtain ⟨htx, hrx, hone, -⟩ := hc
  rw [forall_rowMask_iff (maskRow c x) fun k m => m.toNat < 2 ^ (classOf c k).maxInst, htx, hrx,
    hone 2 (by omega) (by omega), hone 3 (by omega) (by omega), hone 4 (by omega) (by omega)]
  simp only [mask_lt_two_pow_iff, Nat.lt_one_iff, forall_and]

theorem configValid_iff (c : Config) :
    configValid c = true ↔
      classesValid c = true ∧ poolParamsValid c = true ∧ dispParamsValid c = true ∧ masksValid c = true := by
  simp only [configValid, Bool.and_eq_true, and_assoc]

/-- Settles O9: no operation refuses for the configuration (`step_refuses_configuration_iff`), and the step's own test is
R15's conditions group by group, put in the rules' order. -/
theorem invalidConfigurationIsRefused : Obligations.InvalidConfigurationIsRefused := by
  intro s
  rw [step_refuses_configuration_iff, configValid_iff]
  refine not_congr ⟨?_, ?_⟩
  · rintro ⟨hclasses, hpool, hdisp, hmasks⟩
    obtain ⟨hlink, hsize, hmax, hfit, hscat, hscat', hbanks, hbanks', hbufs, hbufs',
      e0, e1, e2, e3, e4, e5, e6, e7⟩ := (poolParamsValid_iff _).mp hpool
    have hctx := (dispParamsValid_iff hclasses).mp hdisp
    obtain ⟨halign, hentry, hrange, hnamed, hidle, hinst⟩ := (classesValid_iff _).mp hclasses
    obtain ⟨hbits, hdisjoint⟩ := (masksValid_iff _).mp hmasks
    have ⟨htx, hrx, hone, hbuf⟩ := hinst
    exact ⟨halign, hlink, hentry, hidle, hsize, hmax, hfit, hscat, hscat', hbanks, hbanks', hbufs, hbufs',
      e0, e1, e2, e3, e4, e5, e6, e7, fun x hx => (maskBits_iff hinst x).mp (hbits x hx), hdisjoint, hrange, hnamed,
      htx, hrx, hone, hbuf, hctx⟩
  · rintro ⟨halign, hlink, hentry, hidle, hsize, hmax, hfit, hscat, hscat', hbanks, hbanks', hbufs, hbufs',
      e0, e1, e2, e3, e4, e5, e6, e7, hbits, hdisjoint, hrange, hnamed, htx, hrx, hone, hbuf, hctx⟩
    have hinst : NamedInstances s.cfg := ⟨htx, hrx, hone, hbuf⟩
    have hclasses := (classesValid_iff _).mpr ⟨halign, hentry, hrange, hnamed, hidle, hinst⟩
    exact ⟨hclasses,
      (poolParamsValid_iff _).mpr ⟨hlink, hsize, hmax, hfit, hscat, hscat', hbanks, hbanks', hbufs, hbufs',
        e0, e1, e2, e3, e4, e5, e6, e7⟩,
      (dispParamsValid_iff hclasses).mpr hctx,
      (masksValid_iff _).mpr ⟨fun x hx => (maskBits_iff hinst x).mpr (hbits x hx), hdisjoint⟩⟩

end Sys2Proof.Machine

namespace Sys2Proof.Machine

/-! ## What the agents of a service pass may write (R50, R201, R257)

Every step of an invocation writes one context record. `Advanced` says what a handler call may change in it. -/

/-- An update of a context record that was just written is one write; beyond the table both write nothing. -/
theorem setCtx_setCtx (c : Nat) (f : Ctx → Ctx) (x : Ctx) (s : State) :
    setCtx c (f ((setCtx c x s).ctx c)) (setCtx c x s) = setCtx c (f x) s := by
  by_cases hc : c < 16
  · rw [setCtx_ctx_same hc]
    simp [setCtx]
  · have hout (y : Ctx) (u : State) : setCtx c y u = u := by
      simp [setCtx, Vector.setIfInBounds_eq_of_size_le (Nat.le_of_not_lt hc)]
    simp only [hout]

/-- What a write of a context record shows at any place, when it keeps what `f` reads of the record. -/
theorem ctx_setCtx_congr {α : Type} {f : Ctx → α} {c : Nat} {x : Ctx} {s : State} (h : f x = f (s.ctx c)) (d : Nat) :
    f ((setCtx c x s).ctx d) = f (s.ctx d) := by
  by_cases hd : c = d
  · subst hd
    by_cases hc : c < 16
    · rw [setCtx_ctx_same hc, h]
    · simp [State.ctx, hc]
  · rw [setCtx_ctx_other hd]

theorem setCtx_self (c : Nat) (s : State) : setCtx c (s.ctx c) s = s := by
  have hcs : s.ctxs.setIfInBounds c (s.ctx c) = s.ctxs := by
    ext1 d hd
    by_cases h : c = d
    · subst h; simp [State.ctx, hd]
    · simp [h]
  rw [setCtx, hcs]

/-- `y` is the record `x` after one handler call: the loop's place moved on, and budget was used or not. -/
def Advanced (x y : Ctx) : Prop :=
  y = { x with phase := y.phase, ringIdx := y.ringIdx, next := y.next, rem := y.rem } ∧ y.rem.toNat ≤ x.rem.toNat

/-- The record after `Account(c, w)`: the budget left never goes below 0 (R195). -/
def spend (w : Word) (x : Ctx) : Ctx := { x with rem := if x.rem.toNat < w.toNat then 0 else x.rem - w }

theorem spend_rem_le (w : Word) (x : Ctx) : (spend w x).rem.toNat ≤ x.rem.toNat := by
  unfold spend
  dsimp only
  split
  · exact Nat.zero_le _
  · next h => rw [BitVec.toNat_sub_of_le (BitVec.le_def.mpr (Nat.le_of_not_lt h))]; exact Nat.sub_le _ _

/-- `Account` spends the work and raises `FAULT` bit 0 on an overrun (R195). -/
theorem account_eq (c : Nat) (w : Word) (s : State) :
    ∃ ho, account c w s = setCtx c (spend w (s.ctx c)) { s with handlerOverrun := s.handlerOverrun || ho } := by
  unfold account spend
  dsimp only
  split
  · exact ⟨true, by rw [Bool.or_true]; rfl⟩
  · exact ⟨false, by rw [Bool.or_false]⟩

/-- The record that the loop's entry into a ring leaves (R191). -/
def entered (p : Slot × Nat) (x : Ctx) : Ctx :=
  { x with phase := p.1.phase, ringIdx := BitVec.ofNat 4 p.1.ringIdx, next := p.2 + 1 }

/-- A handler call moves its context on, appends one record to the history, and never clears `FAULT` bit 0; nothing else
changes but the environment. -/
theorem callHandler_eq (a : Agent) (c : Nat) (p : Slot × Nat) (s : State) :
    ∃ x ho o e, Advanced (s.ctx c) x ∧ callHandler a c p s =
      setCtx c x { s with handlerOverrun := s.handlerOverrun || ho, hist := s.hist ++ [⟨a, o⟩], env := e } := by
  unfold callHandler
  dsimp only
  split
  · have he := drawWork_env p.1.ringId (s.ctx c).rem (enterSlot c p s)
    generalize drawWork p.1.ringId (s.ctx c).rem (enterSlot c p s) = d at he
    obtain ⟨w, s2⟩ := d
    dsimp only at he ⊢
    rw [EnvOnly] at he
    obtain ⟨ho, h⟩ := account_eq c w (record a (handlerOp c (s.ctx c).rem w p.1) s2)
    refine ⟨spend w (entered p (s.ctx c)), ho, handlerOp c (s.ctx c).rem w p.1, s2.env,
      ⟨rfl, spend_rem_le w (entered p (s.ctx c))⟩, ?_⟩
    rw [h, he]
    exact setCtx_setCtx c (spend w) (entered p (s.ctx c))
      { s with
        handlerOverrun := s.handlerOverrun || ho, hist := s.hist ++ [⟨a, handlerOp c (s.ctx c).rem w p.1⟩],
        env := s2.env }
  · refine ⟨entered p (s.ctx c), false, handlerOp c 0 0 p.1, ?_⟩
    rw [Bool.or_false]
    unfold drainReo
    split <;> exact ⟨_, ⟨rfl, le_rfl⟩, rfl⟩

theorem loopStep_eq {a : Agent} {c : Nat} {s t : State} (h : loopStep a c s = some t) :
    ∃ x ho o e, Advanced (s.ctx c) x ∧
      t = setCtx c x { s with handlerOverrun := s.handlerOverrun || ho, hist := s.hist ++ [⟨a, o⟩], env := e } := by
  unfold loopStep at h
  obtain ⟨p, -, rfl⟩ := Option.map_eq_some_iff.mp h
  exact callHandler_eq a c p s

theorem Advanced.ctxMask {x y : Ctx} (h : Advanced x y) (k : Nat) : ctxMask y k = ctxMask x k := by
  rw [h.1]
  rfl

theorem Advanced.pend {x y : Ctx} (h : Advanced x y) : y.pend = x.pend := by rw [h.1]

/-- `t` is `s` after agent `a` wrote record `x` of context `c`, with the masks it had, and records of its own in the history;
`FAULT` bit 0 is not cleared, and nothing else changes but the environment. -/
def WritesOwn (a : Agent) (c : Nat) (x : Ctx) (s t : State) : Prop :=
  (∀ k, ctxMask x k = ctxMask (s.ctx c) k) ∧ ∃ ho es e, (∀ v ∈ es, v.agent = a) ∧
    t = setCtx c x { s with handlerOverrun := s.handlerOverrun || ho, hist := s.hist ++ es, env := e }

/-- A write of the context's record alone. -/
theorem writesOwn_setCtx (a : Agent) {c : Nat} {x : Ctx} {s : State} (h : ∀ k, ctxMask x k = ctxMask (s.ctx c) k) :
    WritesOwn a c x s (setCtx c x s) :=
  ⟨h, false, [], s.env, by simp, by simp⟩

theorem loopStep_writesOwn {a : Agent} {c : Nat} {s t : State} (h : loopStep a c s = some t) :
    ∃ x, x.pend = (s.ctx c).pend ∧ WritesOwn a c x s t := by
  obtain ⟨x, ho, o, e, hx, rfl⟩ := loopStep_eq h
  exact ⟨x, hx.pend, hx.ctxMask, ho, [⟨a, o⟩], e, by simp, rfl⟩

/-- The record that the start of an invocation leaves (R191, R254). -/
def started (r : Runner) (budget : Word) (x : Ctx) : Ctx :=
  { x with busy := true, phase := .tx, budgetIn := budget, rem := budget, next := 0, runner := r }

theorem startInvocation_eq (r : Runner) (budget : Word) (c : Nat) (s : State) :
    startInvocation r budget c s = setCtx c (started r budget (s.ctx c)) s := rfl

/-- The record that the end of an invocation leaves (R191, R254). -/
def finished (x : Ctx) : Ctx :=
  { x with phase := .idle, ringIdx := 0, lastWork := x.budgetIn - x.rem, busy := false, next := 0, runner := .svc }

theorem endInvocation_eq (c : Nat) (s : State) : endInvocation c s = setCtx c (finished (s.ctx c)) s := rfl

theorem endInvocation_writesOwn (a : Agent) (c : Nat) (s : State) :
    ∃ x, x.pend = (s.ctx c).pend ∧ WritesOwn a c x s (endInvocation c s) :=
  ⟨finished (s.ctx c), rfl, writesOwn_setCtx a fun _ => rfl⟩

theorem WritesOwn.frame {a : Agent} {c : Nat} {x : Ctx} {s t : State} (h : WritesOwn a c x s t) :
    t = { s with ctxs := t.ctxs, handlerOverrun := t.handlerOverrun, hist := t.hist, env := t.env } := by
  obtain ⟨-, ho, es, e, -, rfl⟩ := h
  rfl

theorem WritesOwn.ctx_other {a : Agent} {c d : Nat} {x : Ctx} {s t : State} (h : WritesOwn a c x s t) (hd : d ≠ c) :
    t.ctx d = s.ctx d := by
  obtain ⟨-, ho, es, e, -, rfl⟩ := h
  exact setCtx_ctx_other hd.symm _ _

theorem WritesOwn.masks {a : Agent} {c : Nat} {x : Ctx} {s t : State} (h : WritesOwn a c x s t) (d k : Nat) :
    ctxMask (t.ctx d) k = ctxMask (s.ctx d) k := by
  obtain ⟨hm, ho, es, e, -, rfl⟩ := h
  exact ctx_setCtx_congr (f := fun y => ctxMask y k) (hm k) d

theorem WritesOwn.pend {a : Agent} {c : Nat} {x : Ctx} {s t : State} (h : WritesOwn a c x s t)
    (hx : x.pend = (s.ctx c).pend) (d : Nat) : (t.ctx d).pend = (s.ctx d).pend := by
  obtain ⟨-, ho, es, e, -, rfl⟩ := h
  exact ctx_setCtx_congr (f := Ctx.pend) hx d

theorem WritesOwn.handlerOverrun {a : Agent} {c : Nat} {x : Ctx} {s t : State} (h : WritesOwn a c x s t)
    (hs : s.handlerOverrun = true) : t.handlerOverrun = true := by
  obtain ⟨-, ho, es, e, -, rfl⟩ := h
  simp [hs]

theorem WritesOwn.hist {a : Agent} {c : Nat} {x : Ctx} {s t : State} (h : WritesOwn a c x s t) :
    ∃ es, t.hist = s.hist ++ es ∧ ∀ v ∈ es, v.agent = a := by
  obtain ⟨-, ho, es, e, hes, rfl⟩ := h
  exact ⟨es, rfl, hes⟩

/-- A step of `SVC[c]` does nothing, starts a requested invocation, calls a handler or ends the invocation. -/
theorem svcStep_cases (c : Nat) (s : State) :
    svcStep c s = s ∨
    (c < s.cfg.numCtx ∧ (s.ctx c).busy = false ∧ (s.ctx c).pend = true ∧ svcStep c s = startPending c s) ∨
    (c < s.cfg.numCtx ∧ (s.ctx c).busy = true ∧ (s.ctx c).runner = .svc ∧
      (loopStep (.svc c) c s = some (svcStep c s) ∨ svcStep c s = endInvocation c s)) := by
  unfold svcStep serviceStep
  dsimp only
  split_ifs with hc hb hr hp
  · cases hl : loopStep (.svc c) c s with
    | none => exact .inr (.inr ⟨hc, hb, hr, .inr rfl⟩)
    | some u => exact .inr (.inr ⟨hc, hb, hr, .inl rfl⟩)
  · exact .inl rfl
  · exact .inr (.inl ⟨hc, by simpa using hb, hp, rfl⟩)
  · exact .inl rfl
  · exact .inl rfl

/-- The start of a requested invocation is one write of the context's record (R254). -/
theorem startPending_eq (c : Nat) (s : State) :
    startPending c s = setCtx c (started .svc (s.ctx c).pendBudget { s.ctx c with pend := false }) s :=
  setCtx_setCtx c (started .svc (s.ctx c).pendBudget) _ s

theorem svcStep_writesOwn (c : Nat) (s : State) : ∃ x, WritesOwn (.svc c) c x s (svcStep c s) := by
  obtain h | ⟨-, -, -, h⟩ | ⟨-, -, -, h | h⟩ := svcStep_cases c s
  · rw [h]
    exact ⟨s.ctx c, fun _ => rfl, false, [], s.env, by simp, by simp [setCtx_self]⟩
  · rw [h, startPending_eq]
    exact ⟨_, writesOwn_setCtx _ fun _ => rfl⟩
  · obtain ⟨x, -, hx⟩ := loopStep_writesOwn h
    exact ⟨x, hx⟩
  · rw [h]
    obtain ⟨x, -, hx⟩ := endInvocation_writesOwn (.svc c) c s
    exact ⟨x, hx⟩

/-- A step of `POLL`: nothing, the start of a context's invocation, a handler call, an invocation's end, or the restart of
the timer (R257). -/
theorem pollStep_cases (s : State) :
    pollStep s = s ∨
    (∃ c, s.poll = .claim c ∧ (s.ctx c).busy = false ∧
      pollStep s = { startInvocation .poll budgetMax c s with poll := .serving c }) ∨
    (∃ c, s.poll = .serving c ∧
      (loopStep .poll c s = some (pollStep s) ∨ pollStep s = pollAfter c (endInvocation c s))) ∨
    (s.poll = .restart ∧ pollStep s = { hostTimerStart .poll s with poll := .idle }) := by
  unfold pollStep
  cases hq : s.poll with
  | idle => exact .inl rfl
  | claim c =>
    dsimp only
    split
    · exact .inl rfl
    · next hb => exact .inr (.inl ⟨c, rfl, by simpa using hb, rfl⟩)
  | serving c =>
    dsimp only
    cases hl : loopStep .poll c s with
    | none => exact .inr (.inr (.inl ⟨c, rfl, .inr rfl⟩))
    | some u => exact .inr (.inr (.inl ⟨c, rfl, .inl hl⟩))
  | restart => exact .inr (.inr (.inr ⟨rfl, rfl⟩))

/-- A step of `POLL` that is no restart of the timer writes the context it is at, as one of its agents, and its own place. -/
theorem pollStep_writesOwn {s : State} (h : s.poll ≠ .restart) :
    ∃ c x u q, (s.poll = .claim c ∨ s.poll = .serving c ∨ pollStep s = s) ∧ x.pend = (s.ctx c).pend ∧
      WritesOwn .poll c x s u ∧ pollStep s = { u with poll := q } := by
  obtain hs | ⟨c, hq, -, hs⟩ | ⟨c, hq, hs | hs⟩ | ⟨hq, -⟩ := pollStep_cases s
  · exact ⟨0, s.ctx 0, s, s.poll, .inr (.inr hs), rfl, by simpa [setCtx_self] using writesOwn_setCtx .poll fun _ => rfl, hs⟩
  · exact ⟨c, started .poll budgetMax (s.ctx c), _, .serving c, .inl hq, rfl, writesOwn_setCtx .poll fun _ => rfl, hs⟩
  · obtain ⟨x, hx, hw⟩ := loopStep_writesOwn hs
    exact ⟨c, x, pollStep s, s.poll, .inr (.inl hq), hx, hw, by rw [hw.frame]⟩
  · obtain ⟨x, hx, hw⟩ := endInvocation_writesOwn .poll c s
    exact ⟨c, x, _, _, .inr (.inl hq), hx, hw, hs⟩
  · exact absurd hq h

/-- Settles O41: each step of `SVC[c]` or `POLL` is one `WritesOwn` of the context it serves; the poll agent also moves its
place, and its restart writes the timer and one record. -/
theorem serviceAgentsKeepToTheirContext : Obligations.ServiceAgentsKeepToTheirContext := by
  refine ⟨fun s c => ?_, fun s => ?_⟩
  · obtain ⟨x, hw⟩ := svcStep_writesOwn c s
    exact ⟨hw.frame, fun d hd => hw.ctx_other hd, hw.masks c, hw.handlerOverrun, hw.hist⟩
  · by_cases hr : s.poll = .restart
    · have hs : pollStep s = { hostTimerStart .poll s with poll := .idle } := by unfold pollStep; rw [hr]
      rw [hs]
      exact ⟨rfl, fun h => absurd hr h, fun _ _ _ => rfl, fun _ _ => rfl, fun _ => rfl, id, _, rfl, by simp⟩
    · obtain ⟨c, x, u, q, hc, hx, hw, hs⟩ := pollStep_writesOwn hr
      have hctx : ∀ d, (pollStep s).ctx d = u.ctx d := fun d => by rw [hs]; rfl
      refine ⟨?_, fun _ => ?_, fun d h1 h2 => ?_, fun d k => ?_, fun d => ?_, ?_, ?_⟩
      · rw [hs, hw.frame]
      · rw [hs, hw.frame]
      · rcases hc with hc | hc | hc
        · rw [hctx, hw.ctx_other fun e : d = c => h1 (e ▸ hc)]
        · rw [hctx, hw.ctx_other fun e : d = c => h2 (e ▸ hc)]
        · rw [hc]
      · rw [hctx, hw.masks]
      · rw [hctx, hw.pend hx]
      · rw [hs]
        exact hw.handlerOverrun
      · rw [hs]
        exact hw.hist

end Sys2Proof.Machine

namespace Sys2Proof.Machine

/-! ## What the ring and pool commands leave to the dispatcher's half (R25, R50)

`State.serviceView` is the half of the Manager that no step of a ring or pool command writes. -/

/-- What the dispatcher, the service passes and the flags consist of. -/
structure ServiceView where
  cfg : Config
  mode : Mode
  cmd : Word
  ctxs : Vector Ctx 16
  disp : Disp
  poll : PollPos
  handlerOverrun : Bool
  cmdOverrun : Bool
  warnCnt : Word

def State.serviceView (s : State) : ServiceView :=
  ⟨s.cfg, s.mode, s.cmd, s.ctxs, s.disp, s.poll, s.handlerOverrun, s.cmdOverrun, s.warnCnt⟩

/-- The positions of the ring and pool commands past their start. -/
def Pos.ofMemory : Pos → Bool
  | .ringAlloc _ | .ringRegister _ _ | .ringReject _ | .ringUnregister _ _ | .ringFree _ _ | .bankAlloc _
  | .accessStart | .getNext _ _ | .setLink _ _ _ | .accessEnd | .publishRing | .scatterAlloc _ | .scatterLink _ _
  | .publishScatter | .unwindScatter | .unwindBank => true
  | _ => false

/-- From `s` a ring or pool command went on to `t`: it completed or stands at one of its positions, and the dispatcher's half
is as it was. -/
structure MemoryStep (s t : State) : Prop where
  view : t.serviceView = s.serviceView
  seq : t.seq = {} ∨ (t.seq.op = s.seq.op ∧ t.seq.pos.ofMemory = true)

theorem MemoryStep.of_frame {s u t : State} (h : MemoryStep u t) (hv : u.serviceView = s.serviceView)
    (ho : u.seq.op = s.seq.op) : MemoryStep s t :=
  ⟨h.view.trans hv, h.seq.imp id fun ⟨hop, hp⟩ => ⟨hop.trans ho, hp⟩⟩

theorem memoryStep_complete (e : Err) (r0 r1 : Word) (s : State) : MemoryStep s (complete e r0 r1 s) := ⟨rfl, .inl rfl⟩

theorem memoryStep_goto {p : Pos} (hp : p.ofMemory = true) (s : State) : MemoryStep s (goto p s) :=
  ⟨rfl, .inr ⟨rfl, hp⟩⟩

/-! ### `PoolUnwind` -/

theorem unwindMemory_memoryStep (s : State) : MemoryStep s (unwindMemory s) := by
  unfold unwindMemory
  split_ifs
  · exact memoryStep_goto rfl s
  · exact memoryStep_goto rfl s
  · exact ⟨rfl, .inl rfl⟩

theorem startUnwind_memoryStep (e : Err) (s : State) : MemoryStep s (startUnwind e s) := by
  unfold startUnwind
  dsimp only
  split
  · exact ⟨rfl, .inr ⟨rfl, rfl⟩⟩
  · exact (unwindMemory_memoryStep _).of_frame (by rfl) (by rfl)

theorem unwindScatterStep_memoryStep {s t : State} (h : unwindScatterStep s = .next t) : MemoryStep s t := by
  obtain ⟨u, hu, ht⟩ := andThen_next h
  obtain ⟨-, rfl⟩ := hostFreeCoherent_next hu
  cases ht
  exact (unwindMemory_memoryStep _).of_frame (by rfl) (by rfl)

theorem unwindBankStep_memoryStep {s t : State} (h : unwindBankStep s = .next t) : MemoryStep s t := by
  obtain ⟨u, hu, ht⟩ := andThen_next h
  obtain ⟨-, rfl⟩ := hostFreeCoherent_next hu
  cases ht
  exact (unwindMemory_memoryStep _).of_frame (by rfl) (by rfl)

/-! ### `RingSetup` and `RingCleanup` -/

theorem ringFail_memoryStep (e : Err) (s : State) : MemoryStep s (ringFail e s) := by
  unfold ringFail
  split
  · exact startUnwind_memoryStep e s
  · exact memoryStep_complete e 0 0 s

theorem ringEnter_memoryStep (r : RingReq) (s : State) : MemoryStep s (ringEnter r s) := by
  unfold ringEnter
  split
  · exact memoryStep_goto rfl s
  · exact ringFail_memoryStep .configErr s

theorem ringReturn_memoryStep (r : RingReq) (s : State) : MemoryStep s (ringReturn r s) := by
  unfold ringReturn
  split
  · exact memoryStep_goto rfl s
  · exact memoryStep_complete _ _ _ s

theorem ringAllocStep_memoryStep (r : RingReq) (s : State) : MemoryStep s (ringAllocStep r s) := by
  unfold ringAllocStep
  obtain ⟨e, h⟩ | ⟨e, va, pa, -, h⟩ := hostAllocCoherent_cases (ringSize s.cfg r.cls r.entries) s <;> rw [h]
  · exact (ringFail_memoryStep _ _).of_frame (by rfl) (by rfl)
  · exact (memoryStep_goto rfl _).of_frame (by rfl) (by rfl)

theorem clearProducer_view (k : Nat) (s : State) :
    (clearProducer k s).serviceView = s.serviceView ∧ (clearProducer k s).seq = s.seq := by
  unfold clearProducer
  split <;> exact ⟨rfl, rfl⟩

theorem ringRegisterStep_memoryStep (r : RingReq) (a : Alloc) (s : State) : MemoryStep s (ringRegisterStep r a s) := by
  unfold ringRegisterStep
  obtain ⟨e, h⟩ | ⟨e, hnd, -, h⟩ := engRingRegister_cases r (ringParams (ringRecord s.cfg r a 0)) s <;> rw [h]
  · exact (memoryStep_goto rfl _).of_frame (by rfl) (by rfl)
  · obtain ⟨hv, hq⟩ := clearProducer_view r.cls (setRing r.cls r.inst (ringRecord s.cfg r a hnd)
      { record .seq (.ringRegister r.cls r.inst r.owner (ringParams (ringRecord s.cfg r a 0)) (some hnd))
          { s with env := e } with engReg := s.engReg ++ [hnd] })
    exact (ringReturn_memoryStep r _).of_frame hv (congrArg Seq.op hq)

theorem ringRejectStep_memoryStep {a : Alloc} {s t : State} (h : ringRejectStep a s = .next t) : MemoryStep s t := by
  obtain ⟨u, hu, ht⟩ := andThen_next h
  obtain ⟨-, rfl⟩ := hostFreeCoherent_next hu
  cases ht
  exact (ringFail_memoryStep _ _).of_frame (by rfl) (by rfl)

theorem ringUnregisterStep_memoryStep {k i : Nat} {s t : State} (h : ringUnregisterStep k i s = .next t) :
    MemoryStep s t := by
  obtain ⟨u, hu, ht⟩ := andThen_next h
  obtain ⟨-, rfl⟩ := engRingUnregister_next hu
  cases ht
  exact (memoryStep_goto rfl _).of_frame (by rfl) (by rfl)

theorem ringCleanupReturn_memoryStep (s : State) : MemoryStep s (ringCleanupReturn s) := by
  unfold ringCleanupReturn
  split
  · exact memoryStep_complete _ _ _ s
  · exact unwindMemory_memoryStep s

theorem ringFreeStep_memoryStep {k i : Nat} {s t : State} (h : ringFreeStep k i s = .next t) : MemoryStep s t := by
  obtain ⟨u, hu, ht⟩ := andThen_next h
  obtain ⟨-, rfl⟩ := hostFreeCoherent_next hu
  cases ht
  obtain ⟨hv, hq⟩ := clearProducer_view k (setRing k i {} { record .seq (.freeCoherent
    ⟨(s.ring k i).rawVa, (s.ring k i).rawPa, (s.ring k i).rawSize⟩) s with
    live := s.live.erase ⟨(s.ring k i).rawVa, (s.ring k i).rawPa, (s.ring k i).rawSize⟩ })
  exact (ringCleanupReturn_memoryStep _).of_frame hv (congrArg Seq.op hq)

/-! ### `LINK_POOL_SETUP` -/

theorem afterBanks_memoryStep (s : State) : MemoryStep s (afterBanks s) := by
  unfold afterBanks
  split
  · exact ringEnter_memoryStep _ s
  · exact memoryStep_goto rfl s

theorem bankAllocStep_memoryStep (b : Nat) (s : State) : MemoryStep s (bankAllocStep b s) := by
  unfold bankAllocStep
  obtain ⟨e, h⟩ | ⟨e, va, pa, -, h⟩ := hostAllocCoherent_cases (bankSize s.cfg (poolTotal s) b) s <;> rw [h]
  · exact (startUnwind_memoryStep _ _).of_frame (by rfl) (by rfl)
  · dsimp only
    split
    · exact (memoryStep_goto rfl _).of_frame (by rfl) (by rfl)
    · exact (afterBanks_memoryStep _).of_frame (by rfl) (by rfl)

theorem accessStartStep_memoryStep {s t : State} (h : accessStartStep s = .next t) : MemoryStep s t := by
  obtain ⟨u, hu, ht⟩ := andThen_next h
  obtain ⟨-, rfl⟩ := engSrcAccessStart_next hu
  cases ht
  exact (memoryStep_goto rfl _).of_frame (by rfl) (by rfl)

theorem getNextStep_memoryStep {b j : Nat} {s t : State} (h : getNextStep b j s = .next t) : MemoryStep s t := by
  obtain ⟨u, hu, ht⟩ := andThen_next h
  obtain ⟨-, -, rfl⟩ := engSrcGetNext_next hu
  cases ht
  exact (memoryStep_goto rfl _).of_frame (by rfl) (by rfl)

theorem setLinkStep_memoryStep {slot : PAddr} {b j : Nat} {s t : State} (h : setLinkStep slot b j s = .next t) :
    MemoryStep s t := by
  unfold setLinkStep at h
  split at h
  · cases h
  · obtain ⟨u, hu, ht⟩ := andThen_next h
    obtain ⟨-, -, rfl⟩ := engSetLinkAddr_next hu
    split at ht <;> cases ht <;> exact (memoryStep_goto rfl _).of_frame (by rfl) (by rfl)

theorem publishRingStep_memoryStep {s t : State} (h : publishRingStep s = .next t) : MemoryStep s t := by
  unfold publishRingStep at h
  split at h
  · next s1 hp =>
    obtain ⟨-, -, e, rfl⟩ := engPublishRing_next hp
    cases h
    exact ⟨rfl, .inl rfl⟩
  · next s1 hp =>
    obtain ⟨-, -, e, rfl⟩ := engPublishRing_next hp
    cases h
    exact (startUnwind_memoryStep _ _).of_frame (by rfl) (by rfl)
  · cases h
  · cases h

theorem scatterAllocStep_memoryStep (n : Nat) (s : State) : MemoryStep s (scatterAllocStep n s) := by
  unfold scatterAllocStep
  obtain ⟨e, h⟩ | ⟨e, va, pa, -, h⟩ := hostAllocCoherent_cases s.cfg.scatterBufSize s <;> rw [h]
  · exact (startUnwind_memoryStep _ _).of_frame (by rfl) (by rfl)
  · dsimp only
    split <;> exact (memoryStep_goto rfl _).of_frame (by rfl) (by rfl)

theorem scatterLinkStep_memoryStep {b j : Nat} {s t : State} (h : scatterLinkStep b j s = .next t) : MemoryStep s t := by
  obtain ⟨u, hu, ht⟩ := andThen_next h
  obtain ⟨-, -, rfl⟩ := engSetLinkAddr_next hu
  split at ht <;> cases ht <;> exact (memoryStep_goto rfl _).of_frame (by rfl) (by rfl)

theorem publishScatterStep_memoryStep (s : State) : MemoryStep s (publishScatterStep s) := by
  unfold publishScatterStep
  obtain ⟨e, ok, h⟩ := engPublishScatter_eq s
  rw [h]
  cases ok with
  | true => exact ⟨rfl, .inl rfl⟩
  | false => exact (startUnwind_memoryStep _ _).of_frame (by rfl) (by rfl)

/-- Every step of a ring or pool command past its start keeps the dispatcher's half. -/
theorem posStep_memoryStep {s t : State} (hp : s.seq.pos.ofMemory = true) (h : posStep s = .next t) : MemoryStep s t := by
  unfold posStep at h
  cases hq : s.seq.pos <;> rw [hq] at hp h <;> dsimp only at h
  case ringAlloc r => cases h; exact ringAllocStep_memoryStep r s
  case ringRegister r a => cases h; exact ringRegisterStep_memoryStep r a s
  case ringReject a => exact ringRejectStep_memoryStep h
  case ringUnregister k i => exact ringUnregisterStep_memoryStep h
  case ringFree k i => exact ringFreeStep_memoryStep h
  case bankAlloc b => cases h; exact bankAllocStep_memoryStep b s
  case accessStart => exact accessStartStep_memoryStep h
  case getNext b j => exact getNextStep_memoryStep h
  case setLink slot b j => exact setLinkStep_memoryStep h
  case accessEnd => cases h; exact (memoryStep_goto rfl _).of_frame (by rfl) (by rfl)
  case publishRing => exact publishRingStep_memoryStep h
  case scatterAlloc n => cases h; exact scatterAllocStep_memoryStep n s
  case scatterLink b j => exact scatterLinkStep_memoryStep h
  case publishScatter => cases h; exact publishScatterStep_memoryStep s
  case unwindScatter => exact unwindScatterStep_memoryStep h
  case unwindBank => exact unwindBankStep_memoryStep h
  all_goals cases hp

end Sys2Proof.Machine

namespace Sys2Proof.Machine

/-! ## What the dispatcher commands and `SERVICE` leave to the memory half (R25, R29, R50)

The counterpart of `State.serviceView`: what no step of these commands, and no service agent, writes. -/

/-- What the ring table, the pool and the ownership ghosts consist of. -/
structure MemoryView where
  cfg : Config
  cmd : Word
  rings : Vector RingRec 128
  producer : Producer
  banks : Vector Bank 256
  scats : Vector Scatter 256
  pool : Pool
  live : List Alloc
  engReg : List Handle

def State.memoryView (s : State) : MemoryView :=
  ⟨s.cfg, s.cmd, s.rings, s.producer, s.banks, s.scats, s.pool, s.live, s.engReg⟩

/-- R29: each `FAULT` bit that was set is set, and `WARN_CNT` is not smaller. -/
def FaultsKept (s t : State) : Prop :=
  (s.handlerOverrun = true → t.handlerOverrun = true) ∧ (s.cmdOverrun = true → t.cmdOverrun = true) ∧
    s.warnCnt.toNat ≤ t.warnCnt.toNat

theorem FaultsKept.refl (s : State) : FaultsKept s s := ⟨id, id, le_rfl⟩

theorem FaultsKept.trans {s t u : State} (h : FaultsKept s t) (h' : FaultsKept t u) : FaultsKept s u :=
  ⟨h'.1 ∘ h.1, h'.2.1 ∘ h.2.1, h.2.2.trans h'.2.2⟩

theorem MemoryStep.faults {s t : State} (h : MemoryStep s t) : FaultsKept s t :=
  ⟨fun e => (congrArg ServiceView.handlerOverrun h.view).trans e,
    fun e => (congrArg ServiceView.cmdOverrun h.view).trans e,
    (congrArg (fun v => v.warnCnt.toNat) h.view).ge⟩

/-- The command whose steps stand at a position: the dispatcher commands and `SERVICE` have positions of their own. -/
def Pos.serviceOp : Pos → Op
  | .registerSource _ | .timerInit | .timerStart => .dispAttach
  | .freeSource | .detachWait | .timerStop | .timerFree => .dispDetach
  | .serviceClaim _ | .serving _ => .service
  | _ => .none

/-- From `s` the command `o` went on to `t`: it completed or stands at one of its positions, and the memory half is as it
was. -/
structure ServiceStep (o : Op) (s t : State) : Prop where
  view : t.memoryView = s.memoryView
  faults : FaultsKept s t
  seq : t.seq = {} ∨ (t.seq.op = s.seq.op ∧ t.seq.pos.serviceOp = o)

/-- Only the memory half, the flags and the operation of the first state matter. -/
theorem ServiceStep.of_frame {o : Op} {s u t : State} (h : ServiceStep o u t) (hv : u.memoryView = s.memoryView)
    (hf : FaultsKept s u) (ho : u.seq.op = s.seq.op) : ServiceStep o s t :=
  ⟨h.view.trans hv, hf.trans h.faults, h.seq.imp id fun ⟨hop, hp⟩ => ⟨hop.trans ho, hp⟩⟩

theorem serviceStep_complete (o : Op) (e : Err) (r0 r1 : Word) (s : State) : ServiceStep o s (complete e r0 r1 s) :=
  ⟨rfl, .refl s, .inl rfl⟩

theorem serviceStep_goto {o : Op} {p : Pos} (hp : p.serviceOp = o) (s : State) : ServiceStep o s (goto p s) :=
  ⟨rfl, .refl s, .inr ⟨rfl, hp⟩⟩

/-! ### `DISP_ATTACH` and `DISP_DETACH` -/

theorem attachFrom_serviceStep (r : Nat) (s : State) : ServiceStep .dispAttach s (attachFrom r s) := by
  unfold attachFrom
  split
  · exact serviceStep_goto (by rfl) s
  · exact ⟨rfl, .refl s, .inl rfl⟩

theorem registerSourceStep_serviceStep (r : Nat) (s : State) : ServiceStep .dispAttach s (registerSourceStep r s) := by
  unfold registerSourceStep
  dsimp only
  obtain ⟨e, raw, h⟩ := hostRegisterInterrupt_eq (((relevantSources s)[r]?).getD (0, 0)).1
    (((relevantSources s)[r]?).getD (0, 0)).2 s
  rw [h]
  exact (attachFrom_serviceStep _ _).of_frame (by rfl) (.refl s) (by rfl)

theorem mapContexts_serviceStep {o : Op} {f : Nat → Ctx → Ctx} {s t : State} (h : ServiceStep o (mapContexts f s) t) :
    ServiceStep o s t := by
  obtain ⟨cs, hcs⟩ := mapContexts_frame f s
  rw [hcs] at h
  exact h.of_frame (by rfl) (.refl s) (by rfl)

theorem finishDetach_serviceStep (s : State) : ServiceStep .dispDetach s (finishDetach s) :=
  mapContexts_serviceStep (f := fun _ x => withMasks {} x) ⟨rfl, .refl _, .inl rfl⟩

theorem detachFrom_serviceStep (s : State) : ServiceStep .dispDetach s (detachFrom s) := by
  unfold detachFrom
  split
  · exact mapContexts_serviceStep (f := fun _ x => { x with pend := false, pendBudget := 0 }) (serviceStep_goto (by rfl) _)
  · exact serviceStep_goto (by rfl) s

theorem freeSourceStep_serviceStep (s : State) : ServiceStep .dispDetach s (freeSourceStep s) := by
  unfold freeSourceStep
  obtain ⟨-, h⟩ | ⟨r, -, h⟩ := hostFreeLastInterrupt_cases s <;> rw [h]
  · exact detachFrom_serviceStep s
  · exact (detachFrom_serviceStep _).of_frame (by rfl) (.refl s) (by rfl)

theorem timerFreeStep_serviceStep (s : State) : ServiceStep .dispDetach s (timerFreeStep s) :=
  (finishDetach_serviceStep _).of_frame (by rfl) (.refl s) (by rfl)

/-! ### The service loop -/

/-- A write of a service agent leaves the sequencer and the memory half alone. -/
theorem WritesOwn.view {a : Agent} {c : Nat} {x : Ctx} {s t : State} (h : WritesOwn a c x s t) :
    t.memoryView = s.memoryView ∧ FaultsKept s t ∧ t.seq = s.seq := by
  refine ⟨?_, ⟨h.handlerOverrun, ?_, ?_⟩, ?_⟩
  · rw [h.frame]; rfl
  · rw [h.frame]; exact id
  · rw [h.frame]
  · rw [h.frame]

theorem servingStep_serviceStep {c : Nat} {s : State} (hp : s.seq.pos = .serving c) :
    ServiceStep .service s (servingStep c s) := by
  unfold servingStep
  split
  · next t h =>
    obtain ⟨x, -, hw⟩ := loopStep_writesOwn h
    obtain ⟨hv, hf, hq⟩ := hw.view
    exact ⟨hv, hf, .inr (by rw [hq, hp]; exact ⟨rfl, rfl⟩)⟩
  · exact ⟨rfl, .refl s, .inl rfl⟩

/-- Every step of a dispatcher command or of `SERVICE` past its start keeps the memory half. -/
theorem posStep_serviceStep {s t : State} (hp : s.seq.pos.serviceOp ≠ .none) (h : posStep s = .next t) :
    ServiceStep s.seq.pos.serviceOp s t := by
  unfold posStep at h
  cases hq : s.seq.pos <;> rw [hq] at hp h <;> dsimp only at h
  case registerSource r => cases h; exact registerSourceStep_serviceStep r s
  case timerInit => cases h; exact (serviceStep_goto (by rfl) _).of_frame (by rfl) (.refl s) (by rfl)
  case timerStart => cases h; exact ⟨rfl, .refl s, .inl rfl⟩
  case freeSource => cases h; exact freeSourceStep_serviceStep s
  case detachWait => cases h; exact finishDetach_serviceStep s
  case timerStop => cases h; exact (serviceStep_goto (by rfl) _).of_frame (by rfl) (.refl s) (by rfl)
  case timerFree => cases h; exact timerFreeStep_serviceStep s
  case serviceClaim c => cases h; exact (serviceStep_goto (by rfl) _).of_frame (by rfl) (.refl s) (by rfl)
  case serving c => cases h; exact servingStep_serviceStep hq
  all_goals exact absurd rfl hp

/-- Every position but `idle` and `start` is one of the memory half's or of the service half's. -/
theorem Pos.cases_half (p : Pos) : p = .idle ∨ p = .start ∨ p.ofMemory = true ∨ p.serviceOp ≠ .none := by
  cases p <;> simp [Pos.ofMemory, Pos.serviceOp]

/-- A step of the sequencer past its start does nothing, or is a step of one of the two halves. -/
theorem seqStep_cases {s t : State} (h : seqStep s = .next t) :
    t = s ∨ (s.seq.pos.ofMemory = true ∧ MemoryStep s t) ∨
      (s.seq.pos.serviceOp ≠ .none ∧ ServiceStep s.seq.pos.serviceOp s t) := by
  unfold seqStep at h
  split at h
  · exact .inl (Host.Outcome.next.inj h).symm
  · obtain hp | hp | hp | hp := s.seq.pos.cases_half
    · unfold posStep at h; rw [hp] at h; exact .inl (Host.Outcome.next.inj h).symm
    · unfold posStep at h; rw [hp] at h; exact .inl (Host.Outcome.next.inj h).symm
    · exact .inr (.inl ⟨hp, posStep_memoryStep hp h⟩)
    · exact .inr (.inr ⟨hp, posStep_serviceStep hp h⟩)

/-! ### The first step of each command -/

theorem beginRingSetup_memoryStep (cls inst owner : Nat) (s : State) :
    MemoryStep (setOp .ringSetup s) (beginRingSetup cls inst owner s) := by
  unfold beginRingSetup
  dsimp only
  split
  · exact memoryStep_complete _ _ _ _
  · exact ringEnter_memoryStep _ _

/-- `RING_CLEANUP` begins a cleanup or ends at once, counting a warning or not (R118, R119). -/
theorem beginRingCleanup_cases (cls inst : Nat) (s : State) :
    (cls ≠ idleClass ∧ (s.ring cls inst).registered = true ∧
      beginRingCleanup cls inst s = goto (.ringUnregister cls inst) (setOp .ringCleanup s)) ∨
    (∃ e, beginRingCleanup cls inst s = complete e 0 0 s ∨ beginRingCleanup cls inst s = complete e 0 0 (warn s)) := by
  unfold beginRingCleanup
  dsimp only
  split_ifs with hk hs hr
  · exact .inr ⟨_, .inl rfl⟩
  · exact .inl ⟨hk, hr, rfl⟩
  · exact .inr ⟨_, .inr rfl⟩
  · exact .inr ⟨_, .inl rfl⟩

theorem beginLinkPoolSetup_memoryStep (s : State) : MemoryStep (setOp .linkPoolSetup s) (beginLinkPoolSetup s) := by
  unfold beginLinkPoolSetup
  dsimp only
  split
  · exact memoryStep_complete _ _ _ _
  · split
    · exact memoryStep_complete _ _ _ _
    · exact (memoryStep_goto rfl _).of_frame (by rfl) (by rfl)

theorem beginDispAttach_serviceStep (s : State) : ServiceStep .dispAttach (setOp .dispAttach s) (beginDispAttach s) := by
  unfold beginDispAttach
  dsimp only
  split
  · exact serviceStep_complete _ _ _ _ _
  · split
    · exact mapContexts_serviceStep (attachFrom_serviceStep 0 _)
    · exact mapContexts_serviceStep (serviceStep_goto (by rfl) _)

theorem beginDispDetach_serviceStep (s : State) : ServiceStep .dispDetach (setOp .dispDetach s) (beginDispDetach s) := by
  unfold beginDispDetach
  dsimp only
  split
  · split
    · exact detachFrom_serviceStep _
    · exact serviceStep_goto (by rfl) _
  · exact serviceStep_complete _ _ _ _ _

theorem beginService_serviceStep (ctx : Nat) (s : State) :
    ServiceStep .service (setOp .service s) (beginService ctx s) := by
  unfold beginService
  dsimp only
  split
  · exact serviceStep_goto (by rfl) _
  · exact serviceStep_complete _ _ _ _ _

/-! ## The flags (R29) -/

theorem faultsKept_warn (s : State) : FaultsKept s (warn s) := by
  refine ⟨id, id, ?_⟩
  rw [warn_warnCnt]
  split
  · exact le_rfl
  · next h =>
    have hlt : s.warnCnt.toNat + 1 < 2 ^ 32 := by
      have hne : s.warnCnt.toNat ≠ 0xFFFFFFFF := fun e => h (BitVec.eq_of_toNat_eq e)
      have := s.warnCnt.isLt
      omega
    calc s.warnCnt.toNat ≤ s.warnCnt.toNat + 1 := Nat.le_succ _
      _ = (s.warnCnt + 1).toNat := (Nat.mod_eq_of_lt hlt).symm.trans (BitVec.toNat_add _ 1).symm

theorem beginCommand_faults (i : Instr) (s : State) : FaultsKept s (beginCommand i s) := by
  cases i with
  | nop => exact .refl s
  | ringSetup cls inst owner => exact (beginRingSetup_memoryStep cls inst owner s).faults
  | ringCleanup cls inst =>
    show FaultsKept s (beginRingCleanup cls inst s)
    obtain ⟨-, -, h⟩ | ⟨e, h | h⟩ := beginRingCleanup_cases cls inst s <;> rw [h]
    · exact .refl s
    · exact .refl s
    · exact faultsKept_warn s
  | linkPoolSetup => exact (beginLinkPoolSetup_memoryStep s).faults
  | linkPoolCleanup => exact (startUnwind_memoryStep .ok (setOp .linkPoolCleanup s)).faults
  | dispAttach => exact (beginDispAttach_serviceStep s).faults
  | dispDetach => exact (beginDispDetach_serviceStep s).faults
  | service ctx => exact (beginService_serviceStep ctx s).faults

theorem seqStep_faults {s t : State} (h : seqStep s = .next t) : FaultsKept s t := by
  obtain rfl | ⟨-, hm⟩ | ⟨-, hs⟩ := seqStep_cases h
  · exact .refl _
  · exact hm.faults
  · exact hs.faults

theorem runCommand_faults {i : Instr} {s t : State} (h : runCommand (beginCommand i) s = .next t) : FaultsKept s t := by
  have hrun : ∀ {n u}, FaultsKept s u → runSeq n u = .next t → FaultsKept s t := fun hu =>
    runSeq_keeps (FaultsKept s) (fun _ _ hv hstep => hv.trans (seqStep_faults hstep)) _ _ t hu
  unfold runCommand at h
  split at h
  · exact hrun (beginCommand_faults i s) h
  · exact hrun (.refl s) h

theorem runAccepted_faults {s t : State} (h : runAccepted s = .next t) : FaultsKept s t := by
  unfold runAccepted at h
  split at h
  · split at h
    · next i _ =>
      split at h
      · cases h
      · rw [exec_eq] at h
        exact runCommand_faults h
    · cases h
      exact .refl s
  · cases h
    exact .refl _

theorem seqAgentStep_faults {s t : State} (h : seqAgentStep s = .next t) : FaultsKept s t := by
  unfold seqAgentStep at h
  split at h
  · split at h
    · next i _ =>
      split at h
      · cases h
      · cases h
        exact beginCommand_faults i s
    · cases h
      exact .refl s
  · exact seqStep_faults h

theorem hostWrite_faults (width offset : Nat) (v : Word) (s : State) : FaultsKept s (hostWrite width offset v s) := by
  unfold hostWrite writeCmd
  split
  · split
    · split
      · exact ⟨id, fun _ => rfl, le_rfl⟩
      · exact .refl s
    all_goals exact .refl s
  · exact .refl s

theorem hostWriteAt_faults (width address : Nat) (v : Word) (s : State) :
    FaultsKept s (hostWriteAt width address v s) := by
  unfold hostWriteAt
  split
  · exact hostWrite_faults _ _ _ s
  · exact .refl s

theorem deliver_faults (source : Nat) (s : State) : FaultsKept s (deliver source s) := by
  unfold deliver
  split
  · exact .refl s
  · dsimp only
    split <;> exact .refl s

theorem pollStep_faults (s : State) : FaultsKept s (pollStep s) := by
  by_cases hr : s.poll = .restart
  · unfold pollStep
    rw [hr]
    exact .refl s
  · obtain ⟨c, x, u, q, -, -, hw, hs⟩ := pollStep_writesOwn hr
    rw [hs]
    exact hw.view.2.1

/-- Every move but reset keeps the flags. -/
theorem applyMove_faults {m : Move} (hm : ∀ strap, m ≠ .reset strap) {s t : State} (h : applyMove m s = .next t) :
    FaultsKept s t := by
  cases m with
  | reset strap => exact absurd rfl (hm strap)
  | command => exact runAccepted_faults h
  | seq => exact seqAgentStep_faults h
  | extWrite x v =>
    change extWrite x v s = .next t at h
    unfold extWrite at h
    split at h <;> cases h
    exact .refl s
  | hostWrite width address v => cases h; exact hostWriteAt_faults width address v s
  | hostRead width address =>
    cases h
    unfold hostReadAt
    split <;> exact .refl s
  | irq source => cases h; exact deliver_faults source s
  | timerFire =>
    cases h
    unfold timerFire
    split <;> exact .refl s
  | svc c =>
    cases h
    obtain ⟨x, hw⟩ := svcStep_writesOwn c s
    exact hw.view.2.1
  | poll => cases h; exact pollStep_faults s
  | refAlloc answers => cases h; exact .refl s
  | refEngine answers => cases h; exact .refl s
  | refPending ring count => cases h; exact .refl s

/-- Taking a move off the list changes the environment only. -/
theorem takeMove_env (s : State) : EnvOnly s (takeMove s).2 := by
  unfold EnvOnly takeMove
  split <;> rfl

/-- Settles O53: only a handler's overrun, a dropped command word and a cleanup's warning touch the flags, and each keeps
them. -/
theorem faultBitsAreSticky : Obligations.FaultBitsAreSticky := by
  intro s t h hm
  have hf := applyMove_faults hm (step_next h).2
  have he := takeMove_env s
  rw [EnvOnly] at he
  rw [he] at hf
  exact hf

end Sys2Proof.Machine

namespace Sys2Proof.Machine

/-! ## The sources of `INT_MASK_TABLE` (R14, R173)

At most 19: a source is a ring of the first five classes, and no ring stands in two contexts' masks (R15 (f)). -/

theorem mem_tableSources {c : Config} {p : Nat × Nat} :
    p ∈ tableSources c ↔ p.2 < c.numCtx ∧ ∃ k < 5, ∃ i < 8,
      (rowMask (maskRow c p.2) k).getLsbD i = true ∧ p.1 = 8 * k + i := by
  obtain ⟨a, x⟩ := p
  simp only [tableSources, List.mem_flatMap, List.mem_map, List.mem_filter, List.mem_range, Prod.mk.injEq]
  constructor
  · rintro ⟨_, hx, k, hk, i, ⟨hi, hb⟩, rfl, rfl⟩
    exact ⟨hx, k, hk, i, hi, hb, rfl⟩
  · rintro ⟨hx, k, hk, i, hi, hb, rfl⟩
    exact ⟨x, hx, k, hk, i, ⟨hi, hb⟩, rfl, rfl⟩

/-- The numbers of the sources that a context's masks name. -/
def rowSources (c : Config) (x : Nat) : List Nat :=
  (List.range 5).flatMap fun k => ((List.range 8).filter fun i => (rowMask (maskRow c x) k).getLsbD i).map fun i => 8 * k + i

theorem mem_rowSources {c : Config} {x a : Nat} :
    a ∈ rowSources c x ↔ ∃ k < 5, ∃ i < 8, (rowMask (maskRow c x) k).getLsbD i = true ∧ a = 8 * k + i := by
  simp only [rowSources, List.mem_flatMap, List.mem_map, List.mem_filter, List.mem_range]
  constructor
  · rintro ⟨k, hk, i, ⟨hi, hb⟩, rfl⟩
    exact ⟨k, hk, i, hi, hb, rfl⟩
  · rintro ⟨k, hk, i, hi, hb, rfl⟩
    exact ⟨k, hk, i, ⟨hi, hb⟩, rfl⟩

theorem tableSources_map_fst (c : Config) : (tableSources c).map Prod.fst = (List.range c.numCtx).flatMap (rowSources c) := by
  simp only [tableSources, List.map_flatMap, List.map_map, Function.comp_def]
  rfl

theorem rowSources_nodup (c : Config) (x : Nat) : (rowSources c x).Nodup := by
  refine List.nodup_flatMap.mpr ⟨fun k _ => ?_, ?_⟩
  · exact ((List.nodup_range).filter _).map fun i j h => by simpa using h
  · refine (List.nodup_range (n := 5)).imp fun {k k'} hne => ?_
    simp only [Function.onFun, List.disjoint_left, List.mem_map, List.mem_filter, List.mem_range]
    rintro a ⟨i, ⟨hi, -⟩, rfl⟩ ⟨i', ⟨hi', -⟩, h⟩
    omega

/-- R15 (f): a ring stands in one context's masks at most. -/
theorem masks_disjoint {c : Config} (hc : configValid c = true) {x y k i : Nat} (hx : x < c.numCtx) (hy : y < c.numCtx)
    (hk : k < 5) (hbx : (rowMask (maskRow c x) k).getLsbD i = true) (hby : (rowMask (maskRow c y) k).getLsbD i = true) :
    x = y := by
  by_contra hne
  obtain ⟨-, -, -, hmasks⟩ := (configValid_iff c).mp hc
  have h := congrArg (fun m => BitVec.getLsbD m i) (((masksValid_iff c).mp hmasks).2 x hx y hy hne k hk)
  simp [hbx, hby] at h

theorem tableSources_nodup {c : Config} (hc : configValid c = true) : ((tableSources c).map Prod.fst).Nodup := by
  rw [tableSources_map_fst]
  refine List.nodup_flatMap.mpr ⟨fun x _ => rowSources_nodup c x, ?_⟩
  refine List.pairwise_iff_forall_sublist.mpr ?_
  intro x y hxy
  have hmem : ∀ z ∈ [x, y], z < c.numCtx := fun z hz => List.mem_range.mp (hxy.subset hz)
  have hne : x ≠ y := by simpa using List.nodup_range.sublist hxy
  simp only [Function.onFun, List.disjoint_left]
  intro a hax hay
  obtain ⟨k, hk, i, hi, hbx, rfl⟩ := mem_rowSources.mp hax
  obtain ⟨k', -, i', hi', hby, h⟩ := mem_rowSources.mp hay
  obtain ⟨rfl, rfl⟩ : k = k' ∧ i = i' := by omega
  exact hne (masks_disjoint hc (hmem x (by simp)) (hmem y (by simp)) hk hbx hby)

/-- The source numbers that R15 (f) leaves possible: 8 for each of the first two classes, one for each of the next three. -/
def possibleSources : List Nat := List.range 17 ++ [24, 32]

theorem mem_possibleSources {c : Config} (hc : configValid c = true) {p : Nat × Nat} (hp : p ∈ tableSources c) :
    p.1 ∈ possibleSources := by
  obtain ⟨hx, k, hk, i, hi, hb, h⟩ := mem_tableSources.mp hp
  obtain ⟨hclasses, -, -, hmasks⟩ := (configValid_iff c).mp hc
  obtain ⟨-, -, -, -, -, hnamed⟩ := (classesValid_iff c).mp hclasses
  have hone := hnamed.2.2.1
  have hlt := ((masksValid_iff c).mp hmasks).1 p.2 hx k hk
  have hbit := (mask_lt_two_pow_iff _ _).mp hlt i hi hb
  simp only [possibleSources, List.mem_append, List.mem_range, List.mem_cons, List.not_mem_nil, or_false]
  by_cases h2 : 2 ≤ k
  · rw [hone k h2 (by omega)] at hbit
    omega
  · omega

theorem tableSources_length_le {c : Config} (hc : configValid c = true) : (tableSources c).length ≤ 19 := by
  have hsub : (tableSources c).map Prod.fst ⊆ possibleSources := by
    intro a ha
    obtain ⟨p, hp, rfl⟩ := List.mem_map.mp ha
    exact mem_possibleSources hc hp
  simpa [possibleSources] using ((tableSources_nodup hc).subperm hsub).length_le

/-- With the masks of the table the relevant sources are those of the table (R172, R173). -/
theorem relevantSources_eq {s : State} (hn : s.cfg.numCtx ≤ 16) (h : TableMasks s) :
    relevantSources s = tableSources s.cfg := by
  unfold relevantSources tableSources contexts
  refine List.flatMap_congr fun c hc => List.flatMap_congr fun k hk => ?_
  have hc' := List.mem_range.mp hc
  rw [h c (by omega) k (List.mem_range.mp hk), if_pos hc']

/-- The record of a registered source shows its pair again: both numbers fit their fields. -/
theorem source_fits {c : Config} (hc : configValid c = true) {p : Nat × Nat} (hp : p ∈ tableSources c) :
    ((BitVec.ofNat 8 p.1).toNat, (BitVec.ofNat 4 p.2).toNat) = p := by
  obtain ⟨hx, k, hk, i, hi, -, h⟩ := mem_tableSources.mp hp
  obtain ⟨hclasses, -, hdisp, -⟩ := (configValid_iff c).mp hc
  have hn := (dispParamsValid_iff hclasses).mp hdisp
  rw [BitVec.toNat_ofNat, BitVec.toNat_ofNat, Nat.mod_eq_of_lt (by omega), Nat.mod_eq_of_lt (by omega)]

end Sys2Proof.Machine

namespace Sys2Proof.Machine

/-! ## The sequencer and the accepted word (R30, R92)

`SeqOk` past a step: the command under way is still the one in `CMD`, or the sequencer is idle and holds nothing. -/

theorem underWay_iff (s : State) : underWay s = true ↔ s.seq.pos ≠ .idle ∧ s.seq.pos ≠ .start := by
  unfold underWay
  cases s.seq.pos <;> simp

theorem seqOk_of_idle {s : State} (h : s.seq = {}) : SeqOk s := by
  unfold SeqOk
  rw [h]

theorem seqOk_underWay_iff {s : State} (h : underWay s = true) :
    SeqOk s ↔ ∃ i, decode s.cmd = .ok i ∧ s.seq.op = opOf i := by
  obtain ⟨hidle, hstart⟩ := (underWay_iff s).mp h
  unfold SeqOk
  split
  · contradiction
  · contradiction
  · exact Iff.rfl

theorem underWay_of_ofMemory {s : State} (h : s.seq.pos.ofMemory = true) : underWay s = true :=
  (underWay_iff s).mpr ⟨fun e => by simp [e, Pos.ofMemory] at h, fun e => by simp [e, Pos.ofMemory] at h⟩

theorem underWay_of_serviceOp {s : State} (h : s.seq.pos.serviceOp ≠ .none) : underWay s = true :=
  (underWay_iff s).mpr ⟨fun e => h (by rw [e]; rfl), fun e => h (by rw [e]; rfl)⟩

/-- A step of the command under way keeps `SeqOk`, if it leaves `CMD` and the operation alone. -/
theorem MemoryStep.seqOk {s t : State} {i : Instr} (h : MemoryStep s t) (hd : decode s.cmd = .ok i)
    (ho : s.seq.op = opOf i) : SeqOk t := by
  rcases h.seq with hq | ⟨hop, hp⟩
  · exact seqOk_of_idle hq
  · have hcmd : t.cmd = s.cmd := congrArg ServiceView.cmd h.view
    rw [seqOk_underWay_iff (underWay_of_ofMemory hp), hcmd, hop]
    exact ⟨i, hd, ho⟩

theorem ServiceStep.seqOk {o : Op} {s t : State} {i : Instr} (h : ServiceStep o s t) (hn : o ≠ .none)
    (hd : decode s.cmd = .ok i) (ho : s.seq.op = opOf i) : SeqOk t := by
  rcases h.seq with hq | ⟨hop, hp⟩
  · exact seqOk_of_idle hq
  · have hcmd : t.cmd = s.cmd := congrArg MemoryView.cmd h.view
    rw [seqOk_underWay_iff (underWay_of_serviceOp (hp ▸ hn)), hcmd, hop]
    exact ⟨i, hd, ho⟩

/-- The first step of the decoded command ends it or puts the sequencer inside it. -/
theorem beginCommand_seqOk {s : State} {i : Instr} (hd : decode s.cmd = .ok i) : SeqOk (beginCommand i s) := by
  cases i with
  | nop => exact seqOk_of_idle rfl
  | ringSetup cls inst owner => exact (beginRingSetup_memoryStep cls inst owner s).seqOk hd rfl
  | ringCleanup cls inst =>
    show SeqOk (beginRingCleanup cls inst s)
    obtain ⟨-, -, h⟩ | ⟨e, h | h⟩ := beginRingCleanup_cases cls inst s <;> rw [h]
    · exact ⟨_, hd, rfl⟩
    · exact seqOk_of_idle rfl
    · exact seqOk_of_idle rfl
  | linkPoolSetup => exact (beginLinkPoolSetup_memoryStep s).seqOk hd rfl
  | linkPoolCleanup => exact (startUnwind_memoryStep .ok (setOp .linkPoolCleanup s)).seqOk hd rfl
  | dispAttach => exact (beginDispAttach_serviceStep s).seqOk (by decide) hd rfl
  | dispDetach => exact (beginDispDetach_serviceStep s).seqOk (by decide) hd rfl
  | service ctx => exact (beginService_serviceStep ctx s).seqOk (by decide) hd rfl

theorem seqStep_seqOk {s t : State} (hs : SeqOk s) (h : seqStep s = .next t) : SeqOk t := by
  obtain rfl | ⟨hp, hm⟩ | ⟨hp, hm⟩ := seqStep_cases h
  · exact hs
  · obtain ⟨i, hd, ho⟩ := (seqOk_underWay_iff (underWay_of_ofMemory hp)).mp hs
    exact hm.seqOk hd ho
  · obtain ⟨i, hd, ho⟩ := (seqOk_underWay_iff (underWay_of_serviceOp hp)).mp hs
    exact hm.seqOk hp hd ho

theorem SeqOk.of_eq {s t : State} (h : SeqOk s) (hc : t.cmd = s.cmd) (hq : t.seq = s.seq) : SeqOk t := by
  unfold SeqOk at h ⊢
  rw [hq, hc]
  exact h

/-! ## The dispatcher's invariant at a position

`InOrder p s` is `DispatchOk s` without `SeqOk`, read as if the sequencer stood at `p`. It depends on `s` through
`State.serviceView` only. -/

def InOrder (p : Pos) (s : State) : Prop :=
  ModeOk (goto p s) ∧ ContextsOk (goto p s) ∧ PassOk (goto p s) ∧ WiringOk (goto p s)

theorem dispatchOk_iff (s : State) : DispatchOk s ↔ SeqOk s ∧ InOrder s.seq.pos s := Iff.rfl

theorem InOrder.of_view {p : Pos} {s t : State} (hs : InOrder p s) (h : t.serviceView = s.serviceView) : InOrder p t := by
  have hcfg : t.cfg = s.cfg := congrArg ServiceView.cfg h
  have hmode : t.mode = s.mode := congrArg ServiceView.mode h
  have hctxs : t.ctxs = s.ctxs := congrArg ServiceView.ctxs h
  have hdisp : t.disp = s.disp := congrArg ServiceView.disp h
  have hpoll : t.poll = s.poll := congrArg ServiceView.poll h
  have hctx (c : Nat) : t.ctx c = s.ctx c := by rw [State.ctx, hctxs]; rfl
  simp only [InOrder, ModeOk, ContextsOk, CtxOk, PassOk, WiringOk, TableMasks, EmptyMasks, NonePending, registeredSources,
    irqHandles, goto_cfg, goto_mode, goto_disp, goto_poll, goto_seq, goto_ctx_get, hcfg, hmode, hdisp, hpoll,
    hctx] at hs ⊢
  exact hs

/-- The contexts know the sequencer only where `SERVICE` has it. -/
theorem contextsOk_goto {p q : Pos} {s : State} (hp : p.serviceOp ≠ .service) (hq : q.serviceOp ≠ .service)
    (h : ContextsOk (goto p s)) : ContextsOk (goto q s) := by
  obtain ⟨hc, hctx, -, hpoll⟩ := h
  have hserv {r : Pos} (hr : r.serviceOp ≠ .service) (c : Nat) : r ≠ .serving c := by rintro rfl; exact hr rfl
  refine ⟨hc, fun c hc16 => ?_, ?_, hpoll⟩
  · obtain ⟨hrem, hidle, hseq, hpass⟩ := hctx c hc16
    exact ⟨hrem, hidle, ⟨fun h => absurd (hseq.mp h) (hserv hp c), fun h => absurd h (hserv hq c)⟩, hpass⟩
  · rw [goto_seq]
    split
    · next c e => exact absurd (congrArg Pos.serviceOp e) hq
    · next c e => exact absurd (congrArg Pos.serviceOp e) hq
    · trivial

/-- The positions at which the wiring is neither an attached machine's nor a detached one's. -/
def Pos.rewiring : Pos → Bool
  | .registerSource _ | .timerInit | .timerStart | .freeSource | .detachWait => true
  | _ => false

theorem Pos.rewiring_of_plain {p : Pos} (h : p.serviceOp = .none) : p.rewiring = false := by
  cases p
  case registerSource | timerInit | timerStart | freeSource | detachWait => cases h
  all_goals rfl

theorem wiringOk_settled {p : Pos} (hp : p.rewiring = false) (s : State) : WiringOk (goto p s) ↔ WiringOk (goto .idle s) := by
  cases p
  case registerSource | timerInit | timerStart | freeSource | detachWait => cases hp
  all_goals exact Iff.rfl

theorem modeOk_plain {p : Pos} (hp : p.serviceOp = .none) (s : State) : ModeOk (goto p s) ↔ ModeOk (goto .idle s) := by
  cases p
  case registerSource | timerInit | timerStart | freeSource | detachWait | timerStop | timerFree | serviceClaim | serving =>
    cases hp
  all_goals exact Iff.rfl

theorem passOk_plain {p : Pos} (hp : p.serviceOp = .none) (s : State) : PassOk (goto p s) ↔ PassOk (goto .idle s) := by
  cases p
  case registerSource | timerInit | timerStart | freeSource | detachWait | timerStop | timerFree | serviceClaim | serving =>
    cases hp
  all_goals exact Iff.rfl

/-- Outside the dispatcher commands and `SERVICE` the invariant does not say where the sequencer stands. -/
theorem InOrder.of_plain {p q : Pos} {s : State} (h : InOrder p s) (hp : p.serviceOp = .none) (hq : q.serviceOp = .none) :
    InOrder q s := by
  obtain ⟨hmode, hctx, hpass, hwire⟩ := h
  exact ⟨(modeOk_plain hq s).mpr ((modeOk_plain hp s).mp hmode), contextsOk_goto (by simp [hp]) (by simp [hq]) hctx,
    (passOk_plain hq s).mpr ((passOk_plain hp s).mp hpass),
    (wiringOk_settled (Pos.rewiring_of_plain hq) s).mpr ((wiringOk_settled (Pos.rewiring_of_plain hp) s).mp hwire)⟩

/-- A machine that is not attached has no mask, no source and no request (R47, R48, R184). -/
theorem InOrder.detached {p : Pos} {s : State} (h : InOrder p s) (hp : p.rewiring = false)
    (ha : s.disp.attached = false) : EmptyMasks s ∧ s.disp.irqReg = [] ∧ NonePending s := by
  obtain ⟨-, -, -, hwire⟩ := h
  obtain ⟨-, -, -, -, hstage⟩ := (wiringOk_settled hp s).mp hwire
  have hif : ¬(goto .idle s).disp.attached = true := by rw [goto_disp, ha]; decide
  change if _ then _ else _ at hstage
  rw [if_neg hif] at hstage
  obtain ⟨hempty, hreg, hnone⟩ := hstage
  exact ⟨hempty, List.map_eq_nil_iff.mp hreg, hnone⟩

/-- An attached machine has the table's masks and its mode's sources (R172, R173). -/
theorem InOrder.attached {p : Pos} {s : State} (h : InOrder p s) (hp : p.rewiring = false)
    (ha : s.disp.attached = true) :
    TableMasks s ∧ (s.mode = .event → registeredSources s = tableSources s.cfg) := by
  obtain ⟨-, -, -, hwire⟩ := h
  obtain ⟨-, -, -, -, hstage⟩ := (wiringOk_settled hp s).mp hwire
  have hif : (goto .idle s).disp.attached = true := ha
  change if _ then _ else _ at hstage
  rw [if_pos hif] at hstage
  obtain ⟨hmasks, hreg⟩ := hstage
  refine ⟨hmasks, fun he => ?_⟩
  rw [goto_mode, he] at hreg
  exact hreg

end Sys2Proof.Machine

namespace Sys2Proof.Machine

/-! ## The dispatcher's invariant under the service agents (R253, R257)

Each part of `InOrder p` under a step that writes one context record. -/

theorem InOrder.contexts {p : Pos} {s : State} (h : InOrder p s) : ContextsOk (goto p s) := h.2.1

theorem ContextsOk.configValid {s : State} (h : ContextsOk s) : configValid s.cfg = true := h.1

theorem ContextsOk.ctx {s : State} (h : ContextsOk s) : ∀ c < 16, CtxOk s c := h.2.1

/-- The context that the sequencer is at, if any, has a place in the table. -/
def Pos.inTable : Pos → Prop
  | .serviceClaim c | .serving c => c < 16
  | _ => True

/-- The context that the poll pass is at, if any, has a place in the table. -/
def PollPos.inTable : PollPos → Prop
  | .claim c | .serving c => c < 16
  | _ => True

theorem ContextsOk.seqBound {s : State} (h : ContextsOk s) : s.seq.pos.inTable := h.2.2.1

theorem ContextsOk.pollBound {s : State} (h : ContextsOk s) : s.poll.inTable := h.2.2.2

/-- A write of one context's record keeps the contexts in order if that record is in order after it. -/
theorem ContextsOk.of_other {s t : State} (c : Nat) (hs : ContextsOk s) (hcfg : t.cfg = s.cfg)
    (hother : ∀ d, d ≠ c → t.ctx d = s.ctx d) (hc : c < 16 → CtxOk t c)
    (hseq : ∀ d, d ≠ c → (t.seq.pos = .serving d ↔ s.seq.pos = .serving d))
    (hpoll : ∀ d, d ≠ c → (t.poll = .serving d ↔ s.poll = .serving d))
    (hseqc : t.seq.pos.inTable)
    (hpollc : t.poll.inTable) : ContextsOk t := by
  obtain ⟨hv, hctx, -, -⟩ := hs
  refine ⟨hcfg ▸ hv, fun d hd => ?_, hseqc, hpollc⟩
  by_cases h : d = c
  · exact h ▸ hc (h ▸ hd)
  · have hok := hctx d hd
    rw [CtxOk] at hok ⊢
    rwa [hother d h, hseq d h, hpoll d h]

theorem tableMasks_congr {s t : State} (hcfg : t.cfg = s.cfg) (hmask : ∀ c k, ctxMask (t.ctx c) k = ctxMask (s.ctx c) k) :
    TableMasks t ↔ TableMasks s := by
  unfold TableMasks
  rw [hcfg]
  simp only [hmask]

theorem emptyMasks_congr {s t : State} (hmask : ∀ c k, ctxMask (t.ctx c) k = ctxMask (s.ctx c) k) :
    EmptyMasks t ↔ EmptyMasks s := by
  unfold EmptyMasks
  simp only [hmask]

/-- The wiring does not depend on what runs. Requests may go at any time, and come only while a source is registered. -/
theorem WiringOk.of_masks {p : Pos} {s t : State} (h : WiringOk (goto p s)) (hcfg : t.cfg = s.cfg) (hmode : t.mode = s.mode)
    (hirq : t.disp.irqReg = s.disp.irqReg) (hatt : t.disp.attached = s.disp.attached)
    (hmask : ∀ c k, ctxMask (t.ctx c) k = ctxMask (s.ctx c) k)
    (hout : ∀ c, s.cfg.numCtx ≤ c → (s.ctx c).pend = false → (t.ctx c).pend = false)
    (hpend : s.disp.irqReg = [] → ∀ c, (s.ctx c).pend = false → (t.ctx c).pend = false) : WiringOk (goto p t) := by
  obtain ⟨hlen, hnodup, h0, hreq, hstage⟩ := h
  have htable : TableMasks (goto p t) ↔ TableMasks (goto p s) := tableMasks_congr hcfg hmask
  have hempty : EmptyMasks (goto p t) ↔ EmptyMasks (goto p s) := emptyMasks_congr hmask
  have hreg : registeredSources (goto p t) = registeredSources (goto p s) := by
    simp only [registeredSources, goto_disp, hirq]
  have hnone : registeredSources (goto p s) = [] → NonePending (goto p s) → NonePending (goto p t) := fun hr hn c hc =>
    hpend (List.map_eq_nil_iff.mp hr) c (hn c hc)
  have hhandles : irqHandles (goto p t) = irqHandles (goto p s) := by simp only [irqHandles, goto_disp, hirq]
  refine ⟨by rw [goto_disp, hirq]; exact hlen, hhandles ▸ hnodup, hhandles ▸ h0,
    fun c hc => hout c (hcfg ▸ hc) (hreq c (hcfg ▸ hc)), ?_⟩
  have hattached : (goto p t).disp.attached = (goto p s).disp.attached := hatt
  have hm : (goto p t).mode = (goto p s).mode := hmode
  have hc : (goto p t).cfg = (goto p s).cfg := hcfg
  rw [htable, hempty, hreg, hattached, hm, hc]
  rw [goto_seq] at hstage ⊢
  cases p
  case detachWait =>
    obtain ⟨ha, ht, hr, hn⟩ := hstage
    exact ⟨ha, ht, hr, hnone hr hn⟩
  case registerSource | timerInit | timerStart | freeSource => exact hstage
  all_goals
    dsimp only at hstage ⊢
    split at hstage
    · next ha => rw [if_pos ha]; exact hstage
    · next ha => rw [if_neg ha]; exact ⟨hstage.1, hstage.2.1, hnone hstage.2.1 hstage.2.2⟩

/-- The mode's mechanism is kept where the sources are, and, in event-driven mode, the timer and the pass. -/
theorem ModeOk.of_pend {p : Pos} {s t : State} (h : ModeOk (goto p s)) (hmode : t.mode = s.mode)
    (hirq : t.disp.irqReg = s.disp.irqReg)
    (hevent : s.mode = .event → t.disp.timer = s.disp.timer ∧ t.poll = s.poll)
    (hpend : s.disp.irqReg = [] → ∀ c, (s.ctx c).pend = false → (t.ctx c).pend = false) : ModeOk (goto p t) := by
  unfold ModeOk at h ⊢
  simp only [goto_mode, goto_disp, goto_poll, goto_ctx_get, hmode, hirq] at h ⊢
  cases hm : s.mode <;> rw [hm] at h
  case event =>
    obtain ⟨ht, hp⟩ := hevent hm
    rw [ht, hp]
    exact h
  case poll =>
    obtain ⟨hi, hn, hpos⟩ := h
    exact ⟨hi, fun c hc => hpend hi c (hn c hc), hpos⟩

/-- A write of a service agent that requests nothing keeps the mechanism, the pass and the wiring. -/
theorem WritesOwn.rest_inOrder {p : Pos} {a : Agent} {c : Nat} {x : Ctx} {s t : State} (h : InOrder p s)
    (hw : WritesOwn a c x s t) (hx : (s.ctx c).pend = false → x.pend = false) :
    ModeOk (goto p t) ∧ PassOk (goto p t) ∧ WiringOk (goto p t) := by
  obtain ⟨hmode, -, hpass, hwire⟩ := h
  have hpend (d : Nat) (hd : (s.ctx d).pend = false) : (t.ctx d).pend = false := by
    by_cases hdc : d = c
    · subst hdc
      obtain ⟨-, ho, es, e, -, rfl⟩ := hw
      by_cases h16 : d < 16
      · rw [setCtx_ctx_same h16]; exact hx hd
      · simp [State.ctx, h16]
    · rw [hw.ctx_other hdc, hd]
  have hmask := hw.masks
  have hf := hw.frame
  refine ⟨hmode.of_pend ?_ ?_ (fun _ => ⟨?_, ?_⟩) fun _ => hpend, ?_,
    hwire.of_masks ?_ ?_ ?_ ?_ hmask (fun d _ => hpend d) fun _ => hpend⟩
  case refine_5 =>
    have hp : (goto p t).poll = (goto p s).poll := by rw [hf]; rfl
    have hd : (goto p t).disp = (goto p s).disp := by rw [hf]; rfl
    unfold PassOk at hpass ⊢
    rw [hp, hd]
    exact hpass
  all_goals rw [hf]

/-- A write of a service agent keeps the order, if it requests nothing and leaves the contexts in order. -/
theorem InOrder.of_writesOwn {p : Pos} {a : Agent} {c : Nat} {x : Ctx} {s t : State} (h : InOrder p s)
    (hw : WritesOwn a c x s t) (hx : (s.ctx c).pend = false → x.pend = false) (hctx : ContextsOk (goto p t)) :
    InOrder p t := by
  obtain ⟨hmode, hpass, hwire⟩ := hw.rest_inOrder h hx
  exact ⟨hmode, hctx, hpass, hwire⟩

/-! ### The context's own record -/

theorem ctxOk_started {t : State} {c : Nat} {r : Runner} {budget : Word} {x : Ctx} (hx : t.ctx c = started r budget x)
    (hseq : r = .seq ↔ t.seq.pos = .serving c) (hpoll : r = .poll ↔ t.poll = .serving c) : CtxOk t c := by
  rw [CtxOk, hx]
  exact ⟨le_rfl, nofun, ⟨fun h => hseq.mp h.2, fun h => ⟨rfl, hseq.mpr h⟩⟩,
    ⟨fun h => hpoll.mp h.2, fun h => ⟨rfl, hpoll.mpr h⟩⟩⟩

theorem ctxOk_finished {t : State} {c : Nat} {x : Ctx} (hx : t.ctx c = finished x)
    (hrem : x.rem.toNat ≤ x.budgetIn.toNat) (hseq : t.seq.pos ≠ .serving c) (hpoll : t.poll ≠ .serving c) :
    CtxOk t c := by
  rw [CtxOk, hx]
  exact ⟨hrem, fun _ => ⟨rfl, rfl, rfl, rfl⟩, ⟨fun h => (nomatch h.1), fun h => absurd h hseq⟩,
    ⟨fun h => (nomatch h.1), fun h => absurd h hpoll⟩⟩

theorem CtxOk.advance {s t : State} {c : Nat} (h : CtxOk s c) (hb : (s.ctx c).busy = true)
    (hx : Advanced (s.ctx c) (t.ctx c)) (hseq : t.seq.pos = s.seq.pos) (hpoll : t.poll = s.poll) : CtxOk t c := by
  obtain ⟨hrem, -, hs, hp⟩ := h
  obtain ⟨heq, hle⟩ := hx
  have hbusy : (t.ctx c).busy = (s.ctx c).busy := by rw [heq]
  have hrunner : (t.ctx c).runner = (s.ctx c).runner := by rw [heq]
  have hbudget : (t.ctx c).budgetIn = (s.ctx c).budgetIn := by rw [heq]
  rw [CtxOk, hseq, hpoll, hbusy, hrunner, hbudget]
  exact ⟨hle.trans hrem, fun hi => absurd (hi.symm.trans hb) Bool.false_ne_true, hs, hp⟩

/-- No agent has a context that is not busy. -/
theorem CtxOk.not_serving {s : State} {c : Nat} (h : CtxOk s c) (hb : (s.ctx c).busy = false) :
    s.seq.pos ≠ .serving c ∧ s.poll ≠ .serving c := by
  obtain ⟨-, -, hs, hp⟩ := h
  exact ⟨fun e => Bool.false_ne_true (hb.symm.trans (hs.mpr e).1), fun e => Bool.false_ne_true (hb.symm.trans (hp.mpr e).1)⟩

/-- A handler call for a busy context keeps the order. -/
theorem loopStep_inOrder {p : Pos} {a : Agent} {c : Nat} {s t : State} (hs : InOrder p s)
    (hb : c < 16 → (s.ctx c).busy = true) (h : loopStep a c s = some t) : InOrder p t := by
  obtain ⟨x, hx, hw⟩ := loopStep_writesOwn h
  obtain ⟨y, ho, o, e, hy, rfl⟩ := loopStep_eq h
  refine hs.of_writesOwn hw (fun hp => hx.trans hp) ?_
  refine hs.contexts.of_other c rfl (fun d hd => setCtx_ctx_other hd.symm _ _) (fun hc => ?_) (fun _ _ => Iff.rfl)
    (fun _ _ => Iff.rfl) hs.contexts.seqBound hs.contexts.pollBound
  exact (hs.contexts.ctx c hc).advance (hb hc) (by rw [goto_ctx_get, goto_ctx_get, setCtx_ctx_same hc]; exact hy) rfl rfl

/-- The start of an invocation of an idle context by agent `r`: the sequencer or the pass moves to it, or neither. -/
theorem ContextsOk.start {s t : State} {c : Nat} {r : Runner} {budget : Word} {x : Ctx} (hs : ContextsOk s)
    (hcfg : t.cfg = s.cfg) (hctxs : t.ctxs = (setCtx c (started r budget x) s).ctxs)
    (hseq : ∀ d, t.seq.pos = .serving d ↔ (s.seq.pos = .serving d ∧ d ≠ c) ∨ (r = .seq ∧ d = c))
    (hpoll : ∀ d, t.poll = .serving d ↔ (s.poll = .serving d ∧ d ≠ c) ∨ (r = .poll ∧ d = c))
    (hseqc : t.seq.pos.inTable)
    (hpollc : t.poll.inTable) : ContextsOk t := by
  have hctx (d : Nat) : t.ctx d = (setCtx c (started r budget x) s).ctx d := by rw [State.ctx, hctxs]; rfl
  refine hs.of_other c hcfg (fun d hd => (hctx d).trans (setCtx_ctx_other hd.symm _ _)) (fun hc => ?_)
    (fun d hd => by simp [hseq, hd]) (fun d hd => by simp [hpoll, hd]) hseqc hpollc
  exact ctxOk_started ((hctx c).trans (setCtx_ctx_same hc _ _)) (by simp [hseq]) (by simp [hpoll])

/-- The end of an invocation: the sequencer and the pass, if they ran it, have left. -/
theorem ContextsOk.finish {s t : State} {c : Nat} (hs : ContextsOk s) (hcfg : t.cfg = s.cfg)
    (hctxs : t.ctxs = (endInvocation c s).ctxs)
    (hseq : ∀ d, t.seq.pos = .serving d ↔ s.seq.pos = .serving d ∧ d ≠ c)
    (hpoll : ∀ d, t.poll = .serving d ↔ s.poll = .serving d ∧ d ≠ c)
    (hseqc : t.seq.pos.inTable)
    (hpollc : t.poll.inTable) : ContextsOk t := by
  have hctx (d : Nat) : t.ctx d = (setCtx c (finished (s.ctx c)) s).ctx d := by rw [State.ctx, hctxs]; rfl
  refine hs.of_other c hcfg (fun d hd => (hctx d).trans (setCtx_ctx_other hd.symm _ _)) (fun hc => ?_)
    (fun d hd => by simp [hseq, hd]) (fun d hd => by simp [hpoll, hd]) hseqc hpollc
  exact ctxOk_finished ((hctx c).trans (setCtx_ctx_same hc _ _)) (hs.ctx c hc).1 (by simp [hseq]) (by simp [hpoll])

theorem numCtx_le {c : Config} (hc : configValid c = true) : c.numCtx ≤ 16 := by
  obtain ⟨hclasses, -, hdisp, -⟩ := (configValid_iff c).mp hc
  exact ((dispParamsValid_iff hclasses).mp hdisp).2

/-! ### The steps of the agents -/

theorem svcStep_inOrder {p : Pos} {s : State} (hs : InOrder p s) (c : Nat) : InOrder p (svcStep c s) := by
  obtain h | ⟨hc, hb, hp, h⟩ | ⟨hc, hb, hr, h⟩ := svcStep_cases c s
  · rw [h]
    exact hs
  · have hc16 := hc.trans_le (numCtx_le hs.contexts.configValid)
    obtain ⟨hseq, hpoll⟩ := (hs.contexts.ctx c hc16).not_serving hb
    rw [h, startPending_eq]
    refine hs.of_writesOwn (writesOwn_setCtx (.svc c) fun _ => rfl) (fun _ => rfl) ?_
    refine hs.contexts.start rfl rfl (fun d => ?_) (fun d => ?_) hs.contexts.seqBound hs.contexts.pollBound
    · simpa using fun e (hd : d = c) => hseq (hd ▸ e)
    · simpa using fun e (hd : d = c) => hpoll (hd ▸ e)
  · obtain h | h := h
    · exact loopStep_inOrder hs (fun _ => hb) h
    · have hc16 := hc.trans_le (numCtx_le hs.contexts.configValid)
      obtain ⟨-, -, hseq, hpoll⟩ := hs.contexts.ctx c hc16
      rw [h]
      obtain ⟨x, hx, hw⟩ := endInvocation_writesOwn (.svc c) c s
      refine hs.of_writesOwn hw (fun hp => hx.trans hp) ?_
      refine hs.contexts.finish rfl rfl (fun d => ?_) (fun d => ?_) hs.contexts.seqBound hs.contexts.pollBound
      · refine (and_iff_left_of_imp fun e hd => ?_).symm
        have := (hseq.mpr (hd ▸ e)).2
        rw [goto_ctx_get, hr] at this
        cases this
      · refine (and_iff_left_of_imp fun e hd => ?_).symm
        have := (hpoll.mpr (hd ▸ e)).2
        rw [goto_ctx_get, hr] at this
        cases this

/-- While a pass runs the mode is `POLL`, the timer has fired, and no step creates or destroys it. A step of the pass keeps
the order if it leaves the timer stopped as long as it runs. -/
theorem InOrder.of_pass {p : Pos} {s t : State} (h : InOrder p s) (hq : s.poll ≠ .idle) (hcfg : t.cfg = s.cfg)
    (hmode : t.mode = s.mode) (hirq : t.disp.irqReg = s.disp.irqReg) (hatt : t.disp.attached = s.disp.attached)
    (hmask : ∀ c k, ctxMask (t.ctx c) k = ctxMask (s.ctx c) k) (hpend : ∀ c, (t.ctx c).pend = (s.ctx c).pend)
    (htimer : t.poll ≠ .idle → t.disp.timer = .stopped) (hctx : ContextsOk (goto p t)) : InOrder p t := by
  obtain ⟨hm, -, ⟨hstop, hrun⟩, hwire⟩ := h
  have hfalls (c : Nat) (hc : (s.ctx c).pend = false) : (t.ctx c).pend = false := (hpend c).trans hc
  refine ⟨hm.of_pend hmode hirq (fun he => ?_) (fun _ => hfalls), hctx, ⟨htimer, fun _ => ?_⟩,
    hwire.of_masks hcfg hmode hirq hatt hmask (fun c _ => hfalls c) (fun _ => hfalls)⟩
  · unfold ModeOk at hm
    rw [goto_mode, he] at hm
    exact absurd hm.2.1 hq
  · obtain ⟨ha, hp⟩ := hrun (.inr hq)
    exact ⟨hatt.trans ha, hp⟩

theorem pollStep_inOrder {p : Pos} {s : State} (hs : InOrder p s) : InOrder p (pollStep s) := by
  have hstop : s.poll ≠ .idle → s.disp.timer = .stopped := by
    obtain ⟨-, -, ⟨hstop, -⟩, -⟩ := hs
    exact hstop
  obtain ⟨hseqc, hpollc⟩ : p.inTable ∧ s.poll.inTable := ⟨hs.contexts.seqBound, hs.contexts.pollBound⟩
  obtain h | ⟨c, hq, hb, h⟩ | ⟨c, hq, h | h⟩ | ⟨hq, h⟩ := pollStep_cases s
  · rw [h]
    exact hs
  · rw [hq] at hpollc
    have hne : s.poll ≠ .idle := by rw [hq]; nofun
    obtain ⟨hseq, -⟩ := (hs.contexts.ctx c hpollc).not_serving hb
    have hw : WritesOwn .poll c (started .poll budgetMax (s.ctx c)) s (startInvocation .poll budgetMax c s) :=
      writesOwn_setCtx .poll fun _ => rfl
    rw [h]
    refine hs.of_pass hne rfl rfl rfl rfl hw.masks (hw.pend rfl) (fun _ => hstop hne) ?_
    refine hs.contexts.start rfl rfl (fun d => ?_) (fun d => ?_) hseqc hpollc
    · simpa using fun e (hd : d = c) => hseq (hd ▸ e)
    · simp [hq, eq_comm]
  · have hb (hc : c < 16) : (s.ctx c).busy = true := by
      obtain ⟨-, -, -, hpoll⟩ := hs.contexts.ctx c hc
      exact (hpoll.mpr hq).1
    exact loopStep_inOrder hs hb h
  · rw [hq] at hpollc
    have hne : s.poll ≠ .idle := by rw [hq]; nofun
    obtain ⟨-, -, hseq, hpoll⟩ := hs.contexts.ctx c hpollc
    have hr : (s.ctx c).runner = .poll := (hpoll.mpr hq).2
    obtain ⟨x, hx, hw⟩ := endInvocation_writesOwn .poll c s
    rw [h]
    refine hs.of_pass hne rfl rfl rfl rfl hw.masks (hw.pend hx) (fun _ => hstop hne) ?_
    have hnext (d : Nat) : (pollAfter c (endInvocation c s)).poll ≠ .serving d := by
      unfold pollAfter
      dsimp only
      split <;> nofun
    refine hs.contexts.finish rfl rfl (fun d => ?_) (fun d => ?_) hseqc ?_
    · refine (and_iff_left_of_imp fun e hd => ?_).symm
      have := (hseq.mpr (hd ▸ e)).2
      rw [goto_ctx_get, hr] at this
      cases this
    · exact ⟨fun e => absurd e (hnext d), fun ⟨e, hd⟩ => absurd (PollPos.serving.inj (hq.symm.trans e)).symm hd⟩
    · have hle := numCtx_le hs.contexts.configValid
      show (pollAfter c (endInvocation c s)).poll.inTable
      unfold pollAfter
      dsimp only
      split
      · next hlt => exact Nat.lt_of_lt_of_le hlt hle
      · trivial
  · have hne : s.poll ≠ .idle := by rw [hq]; nofun
    rw [h]
    refine hs.of_pass hne rfl rfl rfl rfl (fun _ _ => rfl) (fun _ => rfl) (fun hp => absurd rfl hp) ?_
    refine ⟨hs.contexts.configValid, fun c hc => ?_, hseqc, trivial⟩
    obtain ⟨hrem, hidle, hseq, hpoll⟩ := hs.contexts.ctx c hc
    refine ⟨hrem, hidle, hseq, hpoll.trans ⟨fun e => ?_, nofun⟩⟩
    exact absurd (hq.symm.trans e) nofun

/-- What is registered stands in the table. -/
theorem InOrder.registered_mem {p : Pos} {s : State} (hs : InOrder p s) {r : IrqRec} (hr : r ∈ s.disp.irqReg) :
    (r.source.toNat, r.ctx.toNat) ∈ tableSources s.cfg := by
  obtain ⟨hmode, -, -, -, -, -, -, hstage⟩ := hs
  have hmem : (r.source.toNat, r.ctx.toNat) ∈ registeredSources (goto p s) := List.mem_map_of_mem hr
  have hevent : (goto p s).mode = .event := by
    cases hm : (goto p s).mode with
    | event => rfl
    | poll =>
      unfold ModeOk at hmode
      rw [hm, goto_disp] at hmode
      rw [hmode.1] at hr
      cases hr
  unfold ModeOk at hmode
  rw [hevent] at hmode
  obtain ⟨-, -, hpos⟩ := hmode
  rw [goto_seq] at hpos hstage
  have hnone (he : registeredSources (goto p s) = []) : (r.source.toNat, r.ctx.toNat) ∈ tableSources s.cfg := by
    rw [he] at hmem
    cases hmem
  cases p
  case registerSource n =>
    obtain ⟨-, -, -, hreg⟩ := hstage
    exact List.mem_of_mem_take (hreg ▸ hmem)
  case timerInit | timerStart => exact absurd hpos id
  case freeSource =>
    obtain ⟨-, -, -, hprefix⟩ := hstage
    exact hprefix.subset hmem
  case detachWait =>
    obtain ⟨-, -, hreg, -⟩ := hstage
    exact hnone hreg
  all_goals
    dsimp only at hstage
    split at hstage
    · rw [hevent] at hstage
      rw [hstage.2] at hmem
      exact hmem
    · exact hnone hstage.2.1

/-- An event of a registered source requests an invocation of a context; nothing else changes (R251, R252). -/
theorem deliver_cases (source : Nat) (s : State) :
    deliver source s = s ∨
    ∃ r ∈ s.disp.irqReg, deliver source s =
      setCtx r.ctx.toNat { s.ctx r.ctx.toNat with pend := true, pendBudget := s.svcBudget } s := by
  unfold deliver
  split
  · exact .inl rfl
  · next r hr =>
    dsimp only
    split
    · exact .inl rfl
    · exact .inr ⟨r, List.mem_of_find?_eq_some hr, rfl⟩

theorem deliver_inOrder {p : Pos} {s : State} (hs : InOrder p s) (source : Nat) : InOrder p (deliver source s) := by
  obtain h | ⟨r, hr, h⟩ := deliver_cases source s
  · rw [h]
    exact hs
  · have hc : r.ctx.toNat < s.cfg.numCtx := (mem_tableSources.mp (hs.registered_mem hr)).1
    have hw : WritesOwn .seq r.ctx.toNat { s.ctx r.ctx.toNat with pend := true, pendBudget := s.svcBudget } s
        (deliver source s) := by
      rw [h]
      exact writesOwn_setCtx .seq fun _ => rfl
    have hirq : s.disp.irqReg ≠ [] := List.ne_nil_of_mem hr
    obtain ⟨hmode, hctx, hpass, hwire⟩ := hs
    rw [h] at hw ⊢
    refine ⟨hmode.of_pend rfl rfl (fun _ => ⟨rfl, rfl⟩) fun e => absurd e hirq, ?_, hpass,
      hwire.of_masks rfl rfl rfl rfl hw.masks (fun d hd hp => ?_) fun e => absurd e hirq⟩
    · refine hctx.of_other r.ctx.toNat rfl (fun d hd => hw.ctx_other hd) (fun hc16 => ?_) (fun _ _ => Iff.rfl)
        (fun _ _ => Iff.rfl) hctx.seqBound hctx.pollBound
      have hok := hctx.ctx _ hc16
      rw [CtxOk, goto_ctx_get] at hok
      rw [CtxOk, goto_ctx_get, setCtx_ctx_same hc16]
      exact hok
    · rw [hw.ctx_other (by omega)]
      exact hp

theorem timerFire_inOrder {p : Pos} {s : State} (hs : InOrder p s) : InOrder p (timerFire s) := by
  unfold timerFire
  split
  · next ht =>
    obtain ⟨hmode, ⟨hv, hctx, hseqc, -⟩, ⟨hstop, hrun⟩, hwire⟩ := hs
    have hidle : s.poll = .idle := by
      by_contra hp
      exact absurd (ht.symm.trans (hstop hp)) nofun
    refine ⟨hmode.of_pend rfl rfl (fun he => ?_) fun _ _ => id, ⟨hv, fun c hc => ?_, hseqc, Nat.zero_lt_succ _⟩,
      ⟨fun _ => rfl, fun _ => hrun (.inl ht)⟩,
      hwire.of_masks rfl rfl rfl rfl (fun _ _ => rfl) (fun _ _ => id) fun _ _ => id⟩
    · unfold ModeOk at hmode
      rw [goto_mode, he] at hmode
      exact absurd (ht.symm.trans hmode.1) nofun
    · obtain ⟨hrem, hrest, hseq, hpoll⟩ := hctx c hc
      refine ⟨hrem, hrest, hseq, hpoll.trans ⟨fun e => ?_, nofun⟩⟩
      exact absurd (hidle.symm.trans e) nofun
  · exact hs

end Sys2Proof.Machine

namespace Sys2Proof.Machine

/-! ## The dispatcher's invariant under `DISP_ATTACH`, `DISP_DETACH` and `SERVICE` (R170 to R185, R190)

What holds between two port operations of each command, and that each goes on in order. -/

@[simp] theorem ctxMask_withMasks (r : MaskRow) (x : Ctx) (k : Nat) : ctxMask (withMasks r x) k = rowMask r k := by
  unfold ctxMask rowMask
  split <;> rfl

/-- The rest of a context's record than its masks and its request. -/
def SameRun (x y : Ctx) : Prop :=
  y.busy = x.busy ∧ y.phase = x.phase ∧ y.ringIdx = x.ringIdx ∧ y.budgetIn = x.budgetIn ∧ y.rem = x.rem ∧
    y.next = x.next ∧ y.runner = x.runner

/-- The contexts do not know the masks and the requests. -/
theorem ContextsOk.of_sameRun {s t : State} (h : ContextsOk s) (hcfg : t.cfg = s.cfg) (hseq : t.seq.pos = s.seq.pos)
    (hpoll : t.poll = s.poll) (hctx : ∀ c, SameRun (s.ctx c) (t.ctx c)) : ContextsOk t := by
  obtain ⟨hv, hok, hseqc, hpollc⟩ := h
  refine ⟨hcfg ▸ hv, fun c hc => ?_, hseq ▸ hseqc, hpoll ▸ hpollc⟩
  obtain ⟨hb, hp, hi, hg, hr, hn, hw⟩ := hctx c
  have := hok c hc
  rw [CtxOk] at this ⊢
  rwa [hb, hp, hi, hg, hr, hn, hw, hseq, hpoll]

/-- The contexts of a machine whose sequencer is idle are in order wherever it goes but into `SERVICE`. -/
theorem ContextsOk.of_goto {p : Pos} {s : State} (h : ContextsOk (goto .idle s)) (hp : p.serviceOp ≠ .service) :
    ContextsOk (goto p s) := contextsOk_goto (p := .idle) nofun hp h

/-- Without a running timer and without a pass nothing is asked of the dispatcher. -/
theorem passOk_of_quiet {s : State} (ht : s.disp.timer ≠ .running) (hp : s.poll = .idle) : PassOk s :=
  ⟨fun h => absurd hp h, fun h => h.elim (fun h => absurd h ht) fun h => absurd hp h⟩

/-- What every stage of `DISP_ATTACH` and `DISP_DETACH` keeps of the contexts and of the registered sources. -/
structure StageOk (s : State) : Prop where
  contexts : ContextsOk (goto .idle s)
  length : s.disp.irqReg.length ≤ 19
  nodup : (irqHandles s).Nodup
  nonzero : 0 ∉ irqHandles s
  requests : ∀ c, s.cfg.numCtx ≤ c → (s.ctx c).pend = false

theorem InOrder.configValid {p : Pos} {s : State} (h : InOrder p s) : configValid s.cfg = true := h.contexts.configValid

theorem StageOk.configValid {s : State} (h : StageOk s) : configValid s.cfg = true := h.contexts.configValid

theorem InOrder.stage {p : Pos} {s : State} (h : InOrder p s) (hp : p.serviceOp ≠ .service) : StageOk s := by
  obtain ⟨-, hctx, -, hlen, hnodup, h0, hreq, -⟩ := h
  exact ⟨contextsOk_goto hp nofun hctx, hlen, hnodup, h0, hreq⟩

/-- The stage knows the contexts, the sources and the place of the pass only. -/
theorem StageOk.of_frame {s t : State} (h : StageOk s) (hcfg : t.cfg = s.cfg) (hctxs : t.ctxs = s.ctxs)
    (hpoll : t.poll = s.poll) (hirq : t.disp.irqReg = s.disp.irqReg) : StageOk t := by
  have hctx (c : Nat) : t.ctx c = s.ctx c := by rw [State.ctx, hctxs]; rfl
  have hhandles : irqHandles t = irqHandles s := congrArg (List.map IrqRec.handle) hirq
  refine ⟨h.contexts.of_sameRun hcfg rfl hpoll fun c => ?_, hirq ▸ h.length, hhandles ▸ h.nodup, hhandles ▸ h.nonzero,
    fun c hc => (congrArg Ctx.pend (hctx c)).trans (h.requests c (hcfg ▸ hc))⟩
  rw [goto_ctx_get, goto_ctx_get, hctx]
  exact ⟨rfl, rfl, rfl, rfl, rfl, rfl, rfl⟩

/-- An update of every context that keeps what runs and requests nothing keeps the stage. -/
theorem StageOk.mapContexts {s : State} (h : StageOk s) {f : Nat → Ctx → Ctx} (hrun : ∀ c x, SameRun x (f c x)) :
    StageOk (mapContexts f s) := by
  have hctx (c : Nat) := mapContexts_ctx f s (numCtx_le h.configValid) c
  obtain ⟨cs, hcs⟩ := mapContexts_frame f s
  refine ⟨h.contexts.of_sameRun (by rw [hcs]; rfl) (by rw [hcs]; rfl) (by rw [hcs]; rfl) fun c => ?_,
    by rw [hcs]; exact h.length, by rw [hcs]; exact h.nodup, by rw [hcs]; exact h.nonzero, fun c hc => ?_⟩
  · rw [goto_ctx_get, goto_ctx_get, hctx]
    split
    · exact hrun c _
    · exact ⟨rfl, rfl, rfl, rfl, rfl, rfl, rfl⟩
  · have hle : s.cfg.numCtx ≤ c := by rw [hcs] at hc; exact hc
    rw [hctx, if_neg (Nat.not_lt.mpr hle)]
    exact h.requests c hle

/-! ### `DISP_ATTACH` -/

/-- `DISP_ATTACH` in event-driven mode has registered the first `r` sources of the table (R173). -/
structure Registering (r : Nat) (s : State) : Prop where
  stage : StageOk s
  event : s.mode = .event
  timer : s.disp.timer = .none
  noPass : s.poll = .idle
  detached : s.disp.attached = false
  masks : TableMasks s
  reached : r ≤ (tableSources s.cfg).length
  sources : registeredSources s = (tableSources s.cfg).take r

theorem Registering.relevant {r : Nat} {s : State} (h : Registering r s) : relevantSources s = tableSources s.cfg :=
  relevantSources_eq (numCtx_le h.stage.configValid) h.masks

/-- Both ends of a registration step are in order: before the next source, and attached with every source. -/
theorem attachFrom_inOrder {r : Nat} {s : State} (h : Registering r s) :
    InOrder (attachFrom r s).seq.pos (attachFrom r s) := by
  have hquiet (t : State) (hd : t.disp.timer = s.disp.timer) (hp : t.poll = s.poll) : PassOk t :=
    passOk_of_quiet (by rw [hd, h.timer]; decide) (hp.trans h.noPass)
  unfold attachFrom
  rw [h.relevant]
  split
  · next hr =>
    refine ⟨?_, h.stage.contexts.of_goto (fun e => Op.noConfusion e), hquiet _ rfl rfl, h.stage.length, h.stage.nodup,
      h.stage.nonzero, h.stage.requests, h.detached, h.masks, hr, h.sources⟩
    unfold ModeOk
    rw [goto_mode, goto_mode, h.event]
    exact ⟨h.timer, h.noPass, trivial⟩
  · next hr =>
    refine ⟨?_, h.stage.contexts.of_sameRun rfl rfl rfl fun _ => ⟨rfl, rfl, rfl, rfl, rfl, rfl, rfl⟩, hquiet _ rfl rfl,
      h.stage.length, h.stage.nodup, h.stage.nonzero, h.stage.requests, ?_⟩
    · unfold ModeOk
      rw [show (goto (finishAttach s).seq.pos (finishAttach s)).mode = .event from h.event]
      exact ⟨h.timer, h.noPass, trivial⟩
    · show if true = true then _ else _
      rw [if_pos rfl, show (goto (finishAttach s).seq.pos (finishAttach s)).mode = .event from h.event]
      exact ⟨h.masks, h.sources.trans (List.take_of_length_le (Nat.le_of_not_lt hr))⟩

theorem sameRun_withMasks (r : MaskRow) (x : Ctx) : SameRun x (withMasks r x) := ⟨rfl, rfl, rfl, rfl, rfl, rfl, rfl⟩

/-- The table's masks, where there were none (R172). -/
theorem assignMasks_tableMasks {s : State} (hn : s.cfg.numCtx ≤ 16) (h : EmptyMasks s) : TableMasks (assignMasks s) := by
  intro c hc k hk
  have hcfg : (assignMasks s).cfg = s.cfg := (assignMasks_setup s).1
  rw [hcfg, assignMasks, mapContexts_ctx _ _ hn]
  split
  · exact ctxMask_withMasks _ _ _
  · exact h c hc k hk

/-- In event-driven mode there is no timer and no pass. -/
theorem InOrder.event {p : Pos} {s : State} (h : InOrder p s) (hm : s.mode = .event) :
    s.disp.timer = .none ∧ s.poll = .idle := by
  obtain ⟨hmode, -⟩ := h
  unfold ModeOk at hmode
  rw [goto_mode, hm] at hmode
  exact ⟨hmode.1, hmode.2.1⟩

/-- In poll mode there is no source and no request. -/
theorem InOrder.poll {p : Pos} {s : State} (h : InOrder p s) (hm : s.mode = .poll) :
    s.disp.irqReg = [] ∧ NonePending s := by
  obtain ⟨hmode, -⟩ := h
  unfold ModeOk at hmode
  rw [goto_mode, hm] at hmode
  exact ⟨hmode.1, hmode.2.1⟩

/-- Before the start of an attachment no timer runs and no pass does. -/
theorem InOrder.quiet {p : Pos} {s : State} (h : InOrder p s) (ha : s.disp.attached = false) :
    s.disp.timer ≠ .running ∧ s.poll = .idle := by
  obtain ⟨-, -, ⟨-, hrun⟩, -⟩ := h
  have hno (h : s.disp.timer = .running ∨ s.poll ≠ .idle) : False := Bool.false_ne_true (ha.symm.trans (hrun h).1)
  exact ⟨fun e => hno (.inl e), not_not.mp fun e => hno (.inr e)⟩

theorem registering_zero {s : State} (h : InOrder .start s) (ha : s.disp.attached = false) (hm : s.mode = .event) :
    Registering 0 (assignMasks s) := by
  obtain ⟨htimer, hpass⟩ := h.event hm
  obtain ⟨hempty, hirq, -⟩ := h.detached rfl ha
  have hstage := (h.stage nofun).mapContexts (f := fun c x => withMasks (maskRow s.cfg c) x) fun c x => sameRun_withMasks _ x
  have hmasks := assignMasks_tableMasks (numCtx_le h.configValid) hempty
  obtain ⟨cs, hcs⟩ : ∃ cs, assignMasks s = { s with ctxs := cs } := mapContexts_frame _ s
  refine ⟨hstage, ?_, ?_, ?_, ?_, hmasks, Nat.zero_le _, ?_⟩
  case refine_5 => rw [List.take_zero, registeredSources, hcs, hirq]; rfl
  all_goals rw [hcs]; assumption

/-- One registration: the next source of the table, under a new handle (R173, R213). -/
theorem Registering.next {r : Nat} {s : State} (h : Registering r s) (hr : r < (tableSources s.cfg).length) :
    Registering (r + 1) (hostRegisterInterrupt (tableSources s.cfg)[r].1 (tableSources s.cfg)[r].2 s) := by
  have hv := h.stage.configValid
  have hlen : s.disp.irqReg.length = r := by
    have := congrArg List.length h.sources
    rwa [registeredSources, List.length_map, List.length_take, Nat.min_eq_left h.reached] at this
  have hle := tableSources_length_le hv
  obtain ⟨e, raw, heq⟩ := hostRegisterInterrupt_eq (tableSources s.cfg)[r].1 (tableSources s.cfg)[r].2 s
  have hnew := legalIrqHandle_admissible s raw (by omega)
  simp only [irqHandleAdmissible, Bool.and_eq_true, decide_eq_true_eq, Bool.not_eq_true', List.contains_eq_mem,
    decide_eq_false_iff_not] at hnew
  obtain ⟨hne, hfresh⟩ := hnew
  rw [heq]
  refine ⟨⟨h.stage.contexts.of_sameRun rfl rfl rfl fun _ => ⟨rfl, rfl, rfl, rfl, rfl, rfl, rfl⟩, ?_, ?_, ?_,
    h.stage.requests⟩, h.event, h.timer, h.noPass, h.detached, h.masks, hr, ?_⟩
  · show (s.disp.irqReg ++ [_]).length ≤ 19
    rw [List.length_append, List.length_singleton]
    omega
  · show ((s.disp.irqReg ++ [_]).map IrqRec.handle).Nodup
    rw [List.map_append]
    exact List.nodup_append'.mpr ⟨h.stage.nodup, List.nodup_singleton _, by simpa [irqHandles] using hfresh⟩
  · show 0 ∉ (s.disp.irqReg ++ [_]).map IrqRec.handle
    rw [List.map_append, List.mem_append, not_or]
    exact ⟨h.stage.nonzero, by simpa using hne.symm⟩
  · show (s.disp.irqReg ++ [_]).map (fun r : IrqRec => (r.source.toNat, r.ctx.toNat)) =
      (tableSources s.cfg).take (r + 1)
    rw [List.map_append, List.map_singleton, source_fits hv (List.getElem_mem hr)]
    change registeredSources s ++ _ = _
    rw [h.sources, List.take_append_getElem]

theorem InOrder.pos_of_event {p : Pos} {s : State} (h : InOrder p s) (hm : s.mode = .event) :
    p ≠ .timerInit ∧ p ≠ .timerStart ∧ p ≠ .timerStop ∧ p ≠ .timerFree := by
  obtain ⟨hmode, -⟩ := h
  unfold ModeOk at hmode
  rw [goto_mode, hm] at hmode
  obtain ⟨-, -, hpos⟩ := hmode
  refine ⟨?_, ?_, ?_, ?_⟩ <;> rintro rfl <;> exact hpos

theorem InOrder.pos_of_poll {p : Pos} {s : State} (h : InOrder p s) (hm : s.mode = .poll) :
    (∀ r, p ≠ .registerSource r) ∧ p ≠ .freeSource ∧ p ≠ .detachWait := by
  obtain ⟨hmode, -⟩ := h
  unfold ModeOk at hmode
  rw [goto_mode, hm] at hmode
  obtain ⟨-, -, hpos⟩ := hmode
  refine ⟨fun r => ?_, ?_, ?_⟩ <;> rintro rfl <;> exact hpos

theorem Mode.eq_event {m : Mode} (h : m ≠ .poll) : m = .event := by
  cases m with
  | event => rfl
  | poll => exact absurd rfl h

theorem Mode.eq_poll {m : Mode} (h : m ≠ .event) : m = .poll := by
  cases m with
  | event => exact absurd rfl h
  | poll => rfl

theorem InOrder.registering {r : Nat} {s : State} (h : InOrder (.registerSource r) s) :
    Registering r s ∧ r < (tableSources s.cfg).length := by
  have hm : s.mode = .event := Mode.eq_event fun e => (h.pos_of_poll e).1 r rfl
  obtain ⟨htimer, hpass⟩ := h.event hm
  have hstage := h.stage nofun
  obtain ⟨-, -, -, -, -, -, -, hdet, hmasks, hr, hreg⟩ := h
  exact ⟨⟨hstage, hm, htimer, hpass, hdet, hmasks, hr.le, hreg⟩, hr⟩

theorem registerSourceStep_inOrder {r : Nat} {s : State} (h : InOrder (.registerSource r) s) :
    InOrder (registerSourceStep r s).seq.pos (registerSourceStep r s) := by
  obtain ⟨hreg, hr⟩ := h.registering
  have hp : ((relevantSources s)[r]?).getD (0, 0) = (tableSources s.cfg)[r] := by
    rw [hreg.relevant, List.getElem?_eq_getElem hr, Option.getD_some]
  unfold registerSourceStep
  rw [hp]
  exact attachFrom_inOrder (hreg.next hr)

/-- `DISP_ATTACH` in poll mode: the masks are assigned and the timer does not run (R174). -/
theorem beginDispAttach_poll_inOrder {s : State} (h : InOrder .start s) (ha : s.disp.attached = false)
    (hm : s.mode = .poll) : InOrder .timerInit (assignMasks s) := by
  obtain ⟨htimer, hpass⟩ := h.quiet ha
  obtain ⟨hirq, hnone⟩ := h.poll hm
  obtain ⟨hempty, -, -⟩ := h.detached rfl ha
  have hstage := (h.stage nofun).mapContexts (f := fun c x => withMasks (maskRow s.cfg c) x) fun c x => sameRun_withMasks _ x
  have hmasks := assignMasks_tableMasks (numCtx_le h.configValid) hempty
  have hpend (c : Nat) (hc : c < 16) : ((assignMasks s).ctx c).pend = false := by
    rw [assignMasks, mapContexts_ctx _ _ (numCtx_le h.configValid)]
    split <;> exact hnone c hc
  obtain ⟨cs, hcs⟩ : ∃ cs, assignMasks s = { s with ctxs := cs } := mapContexts_frame _ s
  refine ⟨?_, hstage.contexts.of_goto nofun, ?_, hstage.length, hstage.nodup, hstage.nonzero,
    hstage.requests, by rw [hcs]; exact ha, hmasks⟩
  · unfold ModeOk
    rw [show (goto .timerInit (assignMasks s)).mode = .poll by rw [hcs]; exact hm]
    exact ⟨by rw [hcs]; exact hirq, hpend, trivial⟩
  · rw [hcs]
    exact passOk_of_quiet htimer hpass

/-- `DISP_ATTACH` in poll mode, before an operation on the timer: no mechanism runs yet. -/
theorem InOrder.creatingTimer {p : Pos} {s : State} (h : InOrder p s) (hp : p = .timerInit ∨ p = .timerStart) :
    s.mode = .poll ∧ s.disp.attached = false ∧ TableMasks s := by
  have hm : s.mode = .poll := Mode.eq_poll fun e => by
    obtain ⟨hinit, hstart, -, -⟩ := h.pos_of_event e
    exact hp.elim hinit hstart
  obtain ⟨-, -, -, -, -, -, -, hstage⟩ := h
  rcases hp with rfl | rfl
  · exact ⟨hm, hstage⟩
  · exact ⟨hm, hstage⟩

theorem timerInitStep_inOrder {s : State} (h : InOrder .timerInit s) : InOrder .timerStart (timerInitStep s) := by
  obtain ⟨hm, ha, hmasks⟩ := h.creatingTimer (.inl rfl)
  obtain ⟨-, hpass⟩ := h.quiet ha
  obtain ⟨hirq, hnone⟩ := h.poll hm
  have hstage : StageOk (timerInitStep s) := (h.stage nofun).of_frame rfl rfl rfl rfl
  refine ⟨?_, hstage.contexts.of_goto nofun, passOk_of_quiet nofun hpass, hstage.length, hstage.nodup, hstage.nonzero,
    hstage.requests, ha, hmasks⟩
  unfold ModeOk
  rw [show (goto .timerStart (timerInitStep s)).mode = .poll from hm]
  exact ⟨hirq, hnone, trivial⟩

theorem timerStartStep_inOrder {s : State} (h : InOrder .timerStart s) : InOrder .idle (timerStartStep s) := by
  obtain ⟨hm, ha, hmasks⟩ := h.creatingTimer (.inr rfl)
  obtain ⟨-, hpass⟩ := h.quiet ha
  obtain ⟨hirq, hnone⟩ := h.poll hm
  have hstage : StageOk (timerStartStep s) := (h.stage nofun).of_frame rfl rfl rfl rfl
  have hpoll : (goto .idle (timerStartStep s)).mode = .poll := hm
  refine ⟨?_, hstage.contexts, ⟨fun hp => absurd hpass hp, fun _ => ⟨rfl, trivial⟩⟩, hstage.length,
    hstage.nodup, hstage.nonzero, hstage.requests, ?_⟩
  · unfold ModeOk
    rw [hpoll]
    exact ⟨hirq, hnone, trivial⟩
  · show if true = true then _ else _
    rw [if_pos rfl, hpoll]
    exact ⟨hmasks, List.map_eq_nil_iff.mpr hirq⟩

/-! ### `DISP_DETACH` -/

/-- `DISP_DETACH` in event-driven mode is freeing the sources, from the last to the first (R182). -/
structure Freeing (s : State) : Prop where
  stage : StageOk s
  event : s.mode = .event
  timer : s.disp.timer = .none
  noPass : s.poll = .idle
  attached : s.disp.attached = true
  masks : TableMasks s
  sources : registeredSources s <+: tableSources s.cfg

/-- The mechanism of event-driven mode, wherever the detachment stands. -/
theorem Freeing.modeOk {s t : State} (h : Freeing s) {p : Pos} (hm : t.mode = s.mode) (hd : t.disp = s.disp)
    (hp : t.poll = s.poll) (hpos : p = .freeSource ∨ p = .detachWait) : ModeOk (goto p t) ∧ PassOk (goto p t) := by
  have htimer : t.disp.timer = .none := by rw [hd]; exact h.timer
  have hpass : t.poll = .idle := hp.trans h.noPass
  refine ⟨?_, passOk_of_quiet (by rw [goto_disp, htimer]; decide) hpass⟩
  unfold ModeOk
  rw [show (goto p t).mode = .event from hm.trans h.event]
  refine ⟨htimer, hpass, ?_⟩
  rcases hpos with rfl | rfl <;> trivial

/-- The wait for running invocations, with every request cancelled (R184). -/
theorem Freeing.waiting {s : State} (h : Freeing s) (hirq : s.disp.irqReg = []) :
    InOrder .detachWait (cancelPending s) := by
  have hstage : StageOk (cancelPending s) := h.stage.mapContexts fun _ _ => ⟨rfl, rfl, rfl, rfl, rfl, rfl, rfl⟩
  have hctx (c : Nat) : (cancelPending s).ctx c =
      if c < s.cfg.numCtx then { s.ctx c with pend := false, pendBudget := 0 } else s.ctx c :=
    mapContexts_ctx (fun _ x => { x with pend := false, pendBudget := 0 }) s (numCtx_le h.stage.configValid) c
  have hmask (c k : Nat) : ctxMask ((cancelPending s).ctx c) k = ctxMask (s.ctx c) k := by
    rw [hctx]
    split <;> rfl
  have hnone : NonePending (cancelPending s) := fun c _ => by
    rw [hctx]
    split
    · rfl
    · next hc => exact h.stage.requests c (Nat.le_of_not_lt hc)
  obtain ⟨hcfg, hmode, hdisp, hpoll⟩ : (cancelPending s).cfg = s.cfg ∧ (cancelPending s).mode = s.mode ∧
      (cancelPending s).disp = s.disp ∧ (cancelPending s).poll = s.poll := by
    obtain ⟨cs, hcs⟩ : ∃ cs, cancelPending s = { s with ctxs := cs } := mapContexts_frame _ s
    rw [hcs]
    exact ⟨rfl, rfl, rfl, rfl⟩
  generalize cancelPending s = t at *
  obtain ⟨hm, hp⟩ := h.modeOk hmode hdisp hpoll (.inr rfl)
  refine ⟨hm, hstage.contexts.of_goto nofun, hp, hstage.length, hstage.nodup, hstage.nonzero, hstage.requests, ?_,
    (tableMasks_congr hcfg hmask).mpr h.masks, ?_, hnone⟩
  · show t.disp.attached = true
    rw [hdisp]
    exact h.attached
  · show t.disp.irqReg.map _ = []
    rw [hdisp, hirq]
    rfl

/-- Both ends of a free are in order: before the next source, and before the wait. -/
theorem detachFrom_inOrder {s : State} (h : Freeing s) : InOrder (detachFrom s).seq.pos (detachFrom s) := by
  unfold detachFrom
  split
  · next hirq => exact h.waiting hirq
  · next hirq =>
    obtain ⟨hm, hp⟩ := h.modeOk rfl rfl rfl (.inl rfl)
    exact ⟨hm, h.stage.contexts.of_goto (p := .freeSource) nofun, hp, h.stage.length, h.stage.nodup, h.stage.nonzero,
      h.stage.requests, h.attached, h.masks, fun e => hirq (List.map_eq_nil_iff.mp e), h.sources⟩

/-- The free of the last source leaves the others as they were. -/
theorem Freeing.free {s : State} (h : Freeing s) : Freeing (hostFreeLastInterrupt s) := by
  obtain ⟨-, heq⟩ | ⟨r, -, heq⟩ := hostFreeLastInterrupt_cases s <;> rw [heq]
  · exact h
  · have hsub : (s.disp.irqReg.dropLast.map IrqRec.handle).Sublist (irqHandles s) := (List.dropLast_sublist _).map _
    refine ⟨⟨h.stage.contexts.of_sameRun rfl rfl rfl fun _ => ⟨rfl, rfl, rfl, rfl, rfl, rfl, rfl⟩, ?_,
      h.stage.nodup.sublist hsub,
      fun h0 => h.stage.nonzero (hsub.subset h0), h.stage.requests⟩, h.event, h.timer, h.noPass, h.attached, h.masks, ?_⟩
    · exact (List.dropLast_sublist _).length_le.trans h.stage.length
    · exact ((List.dropLast_prefix _).map _).trans h.sources

theorem InOrder.freeing {s : State} (h : InOrder .freeSource s) : Freeing s := by
  have hm : s.mode = .event := Mode.eq_event fun e => (h.pos_of_poll e).2.1 rfl
  obtain ⟨htimer, hpass⟩ := h.event hm
  have hstage := h.stage nofun
  obtain ⟨-, -, -, -, -, -, -, hatt, hmasks, -, hsources⟩ := h
  exact ⟨hstage, hm, htimer, hpass, hatt, hmasks, hsources⟩

/-- The command has nothing left to free: only the masks are still there (R180, R185). -/
structure Leaving (s : State) : Prop where
  stage : StageOk s
  timer : s.disp.timer = .none
  noPass : s.poll = .idle
  noSource : s.disp.irqReg = []
  noRequest : NonePending s
  beyond : ∀ c, s.cfg.numCtx ≤ c → c < 16 → ∀ k < 5, ctxMask (s.ctx c) k = 0

theorem TableMasks.beyond {s : State} (h : TableMasks s) :
    ∀ c, s.cfg.numCtx ≤ c → c < 16 → ∀ k < 5, ctxMask (s.ctx c) k = 0 := fun c hle hc k hk => by
  rw [h c hc k hk, if_neg (Nat.not_lt.mpr hle)]

theorem rowMask_empty (k : Nat) : rowMask {} k = 0 := by
  unfold rowMask
  split <;> rfl

/-- Without a mechanism and without a request, either mode is in order. -/
theorem modeOk_of_none {s : State} (ht : s.disp.timer = .none) (hp : s.poll = .idle) (hi : s.disp.irqReg = [])
    (hn : NonePending s) (hpos : s.seq.pos = .idle) : ModeOk s := by
  unfold ModeOk
  rw [hpos]
  split
  · exact ⟨ht, hp, trivial⟩
  · exact ⟨hi, hn, trivial⟩

/-- The end of `DISP_DETACH`: no mask, not attached. -/
theorem Leaving.finish {s : State} (h : Leaving s) : InOrder .idle (finishDetach s) := by
  have hn := numCtx_le h.stage.configValid
  have hstage : StageOk (clearMasks s) := h.stage.mapContexts fun _ x => sameRun_withMasks {} x
  have hctx (c : Nat) : (clearMasks s).ctx c = if c < s.cfg.numCtx then withMasks {} (s.ctx c) else s.ctx c :=
    mapContexts_ctx (fun _ x => withMasks {} x) s hn c
  have hempty : EmptyMasks (clearMasks s) := fun c hc k hk => by
    rw [hctx]
    split
    · rw [ctxMask_withMasks, rowMask_empty]
    · next hle => exact h.beyond c (Nat.le_of_not_lt hle) hc k hk
  have hnone : NonePending (clearMasks s) := fun c hc => by
    rw [hctx]
    split <;> exact h.noRequest c hc
  obtain ⟨htimer, hpass, hirq⟩ : (clearMasks s).disp.timer = .none ∧ (clearMasks s).poll = .idle ∧
      (clearMasks s).disp.irqReg = [] := by
    obtain ⟨cs, hcs⟩ : ∃ cs, clearMasks s = { s with ctxs := cs } := mapContexts_frame _ s
    rw [hcs]
    exact ⟨h.timer, h.noPass, h.noSource⟩
  unfold finishDetach
  generalize clearMasks s = t at *
  have hend : StageOk (completeOk { t with disp := { t.disp with attached := false } }) := hstage.of_frame rfl rfl rfl rfl
  refine ⟨modeOk_of_none htimer hpass hirq hnone rfl, hend.contexts, passOk_of_quiet (fun e => ?_) hpass, hend.length,
    hend.nodup, hend.nonzero, hend.requests, ?_⟩
  · exact absurd (htimer.symm.trans e) nofun
  · show if false = true then _ else _
    rw [if_neg (by decide)]
    exact ⟨hempty, List.map_eq_nil_iff.mpr hirq, hnone⟩

/-- `DISP_DETACH` after its wait: nothing runs in event-driven mode but the contexts (R184). -/
theorem InOrder.leaving_wait {s : State} (h : InOrder .detachWait s) : Leaving s := by
  have hm : s.mode = .event := Mode.eq_event fun e => (h.pos_of_poll e).2.2 rfl
  obtain ⟨htimer, hpass⟩ := h.event hm
  have hstage := h.stage nofun
  obtain ⟨-, -, -, -, -, -, -, -, hmasks, hreg, hnone⟩ := h
  exact ⟨hstage, htimer, hpass, List.map_eq_nil_iff.mp hreg, hnone, TableMasks.beyond hmasks⟩

/-- Whether attached or not, what is no context has no mask. -/
theorem InOrder.masks_beyond {p : Pos} {s : State} (h : InOrder p s) (hp : p.rewiring = false) :
    ∀ c, s.cfg.numCtx ≤ c → c < 16 → ∀ k < 5, ctxMask (s.ctx c) k = 0 := by
  cases ha : s.disp.attached with
  | true => exact (h.attached hp ha).1.beyond
  | false => exact fun c _ hc k hk => (h.detached hp ha).1 c hc k hk

end Sys2Proof.Machine

namespace Sys2Proof.Machine

/-! ## The dispatcher's invariant under every step (R92, R253) -/

/-! ### The sequencer past its start -/

/-- The stop of a timer that no pass holds (R182, R183). -/
theorem timerStopStep_inOrder {s : State} (h : InOrder .timerStop s) (ht : s.disp.timer ≠ .stopped) :
    InOrder .timerFree (timerStopStep s) := by
  have hm : s.mode = .poll := Mode.eq_poll fun e => by
    obtain ⟨-, -, hstop, -⟩ := h.pos_of_event e
    exact hstop rfl
  obtain ⟨hirq, hnone⟩ := h.poll hm
  have hstage : StageOk (timerStopStep s) := (h.stage nofun).of_frame rfl rfl rfl rfl
  obtain ⟨-, -, ⟨hstop, -⟩, hwire⟩ := h
  have hpass : (timerStopStep s).poll = .idle := not_not.mp fun hp => ht (hstop hp)
  refine ⟨?_, hstage.contexts.of_goto (p := .timerFree) nofun, passOk_of_quiet nofun hpass, hwire⟩
  unfold ModeOk
  rw [show (goto .timerFree (timerStopStep s)).mode = .poll from hm]
  exact ⟨hirq, hnone, trivial⟩

/-- `DISP_DETACH` in poll mode, before it frees the timer: no pass runs and no source is registered (R182). -/
theorem InOrder.leaving_timer {s : State} (h : InOrder .timerFree s) : Leaving (hostTimerFree s) := by
  have hm : s.mode = .poll := Mode.eq_poll fun e => by
    obtain ⟨-, -, -, hfree⟩ := h.pos_of_event e
    exact hfree rfl
  obtain ⟨hirq, hnone⟩ := h.poll hm
  have hstage : StageOk (hostTimerFree s) := (h.stage nofun).of_frame rfl rfl rfl rfl
  have hbeyond := h.masks_beyond rfl
  obtain ⟨-, -, ⟨-, hrun⟩, -⟩ := h
  exact ⟨hstage, rfl, not_not.mp fun hp => (hrun (.inr hp)).2, hirq, hnone, hbeyond⟩

/-- `SERVICE` claims a context that is not busy (R190). -/
theorem serviceClaimStep_inOrder {c : Nat} {s : State} (h : InOrder (.serviceClaim c) s)
    (hb : (s.ctx c).busy = false) : InOrder (.serving c) (serviceClaimStep c s) := by
  have hc : c < 16 := h.contexts.seqBound
  obtain ⟨-, hpoll⟩ := (h.contexts.ctx c hc).not_serving hb
  have hw : WritesOwn .seq c (started .seq s.seq.arg (s.ctx c)) s (startInvocation .seq s.seq.arg c s) :=
    writesOwn_setCtx .seq fun _ => rfl
  obtain ⟨hmode, hpass, hwire⟩ := hw.rest_inOrder h id
  refine ⟨hmode, ?_, hpass, hwire⟩
  refine h.contexts.start (r := .seq) (budget := s.seq.arg) (x := s.ctx c) rfl rfl (fun d => ?_) (fun d => ?_) hc
    h.contexts.pollBound
  · show Pos.serving c = .serving d ↔ (Pos.serviceClaim c = .serving d ∧ d ≠ c) ∨ _
    simp [eq_comm]
  · show s.poll = .serving d ↔ _
    simpa using fun e (hd : d = c) => hpoll (hd ▸ e)

/-- A step of `SERVICE` inside the loop, and its end (R190). -/
theorem servingStep_inOrder {c : Nat} {s : State} (hs : s.seq.pos = .serving c) (h : InOrder (.serving c) s) :
    InOrder (servingStep c s).seq.pos (servingStep c s) := by
  have hc : c < 16 := h.contexts.seqBound
  obtain ⟨-, -, hseq, hpoll⟩ := h.contexts.ctx c hc
  obtain ⟨hb, hr⟩ : (s.ctx c).busy = true ∧ (s.ctx c).runner = .seq := hseq.mpr rfl
  unfold servingStep
  split
  · next t ht =>
    have hq : t.seq.pos = .serving c := by
      obtain ⟨x, -, hw⟩ := loopStep_writesOwn ht
      rw [hw.view.2.2, hs]
    rw [hq]
    exact loopStep_inOrder h (fun _ => hb) ht
  · obtain ⟨x, hx, hw⟩ := endInvocation_writesOwn .seq c s
    obtain ⟨hmode, hpass, hwire⟩ := hw.rest_inOrder h fun hp => hx.trans hp
    refine ⟨hmode, ?_, hpass, hwire⟩
    refine h.contexts.finish rfl rfl (fun d => ?_) (fun d => ?_) trivial h.contexts.pollBound
    · show Pos.idle = .serving d ↔ Pos.serving c = .serving d ∧ d ≠ c
      simp [eq_comm]
    · refine (and_iff_left_of_imp fun e hd => ?_).symm
      have := (hpoll.mpr (hd ▸ e)).2
      rw [goto_ctx_get, hr] at this
      cases this

/-- Every step of a dispatcher command or of `SERVICE` past its start keeps the order. -/
theorem posStep_inOrder {s t : State} (h : InOrder s.seq.pos s) (hp : s.seq.pos.serviceOp ≠ .none)
    (hheld : seqHeld s = false) (hstep : posStep s = .next t) : InOrder t.seq.pos t := by
  unfold posStep at hstep
  unfold seqHeld at hheld
  cases hq : s.seq.pos <;> rw [hq] at hp h hstep hheld <;> dsimp only at hstep hheld
  case registerSource r => cases hstep; exact registerSourceStep_inOrder h
  case timerInit => cases hstep; exact timerInitStep_inOrder h
  case timerStart => cases hstep; exact timerStartStep_inOrder h
  case freeSource => cases hstep; exact detachFrom_inOrder h.freeing.free
  case detachWait => cases hstep; exact h.leaving_wait.finish
  case timerStop => cases hstep; exact timerStopStep_inOrder h (of_decide_eq_false hheld)
  case timerFree => cases hstep; exact h.leaving_timer.finish
  case serviceClaim c => cases hstep; exact serviceClaimStep_inOrder h hheld
  case serving c => cases hstep; exact servingStep_inOrder hq h
  all_goals exact absurd rfl hp

theorem Pos.serviceOp_of_ofMemory {p : Pos} (h : p.ofMemory = true) : p.serviceOp = .none := by
  cases p
  case registerSource | timerInit | timerStart | freeSource | detachWait | timerStop | timerFree | serviceClaim | serving =>
    cases h
  all_goals rfl

/-- A step of a ring or pool command keeps the order: nothing of the dispatcher changes. -/
theorem MemoryStep.inOrder {p : Pos} {s t : State} (hm : MemoryStep s t) (hp : p.serviceOp = .none) (h : InOrder p s) :
    InOrder t.seq.pos t := by
  have hq : t.seq.pos.serviceOp = .none := by
    rcases hm.seq with hq | ⟨-, hq⟩
    · rw [hq]; rfl
    · exact Pos.serviceOp_of_ofMemory hq
  exact (h.of_plain hp hq).of_view hm.view

theorem seqStep_dispatchOk {s t : State} (hs : DispatchOk s) (h : seqStep s = .next t) : DispatchOk t := by
  obtain ⟨hseq, hs⟩ := (dispatchOk_iff s).mp hs
  refine (dispatchOk_iff t).mpr ⟨seqStep_seqOk hseq h, ?_⟩
  obtain rfl | ⟨hp, hm⟩ | ⟨hp, -⟩ := seqStep_cases h
  · exact hs
  · exact hm.inOrder (Pos.serviceOp_of_ofMemory hp) hs
  · unfold seqStep at h
    split at h
    · cases h; exact hs
    · next hheld => exact posStep_inOrder hs hp (Bool.eq_false_of_not_eq_true hheld) h

/-! ### The first step of each command -/

theorem InOrder.ended {p : Pos} {s : State} (h : InOrder p s) (hp : p.serviceOp = .none) (e : Err) (r0 r1 : Word) :
    InOrder .idle (complete e r0 r1 s) := (h.of_plain hp rfl).of_view rfl

/-- The count of warnings is none of the dispatcher's. -/
theorem InOrder.warn {p : Pos} {s : State} (h : InOrder p s) : InOrder p (warn s) := by
  unfold Machine.warn
  split <;> exact h

theorem beginRingCleanup_inOrder {s : State} (cls inst : Nat) (h : InOrder .start s) :
    InOrder (beginRingCleanup cls inst s).seq.pos (beginRingCleanup cls inst s) := by
  obtain ⟨-, -, heq⟩ | ⟨e, heq | heq⟩ := beginRingCleanup_cases cls inst s <;> rw [heq]
  · exact (h.of_plain rfl rfl : InOrder (.ringUnregister cls inst) s).of_view rfl
  · exact h.ended rfl e 0 0
  · exact h.warn.ended rfl e 0 0

theorem beginDispAttach_inOrder {s : State} (h : InOrder .start s) :
    InOrder (beginDispAttach s).seq.pos (beginDispAttach s) := by
  have hop : InOrder .start (setOp .dispAttach s) := h.of_view rfl
  unfold beginDispAttach
  dsimp only
  split
  · exact hop.ended rfl .configErr 0 0
  · next ha =>
    have ha : (setOp .dispAttach s).disp.attached = false := Bool.eq_false_of_not_eq_true ha
    split
    · next hm => exact attachFrom_inOrder (registering_zero hop ha hm)
    · next hm => exact (beginDispAttach_poll_inOrder hop ha hm).of_view rfl

/-- An attached machine in event-driven mode is ready for the free of its sources. -/
theorem InOrder.freeing_all {s : State} (h : InOrder .start s) (ha : s.disp.attached = true) (hm : s.mode = .event) :
    Freeing s := by
  obtain ⟨htimer, hpass⟩ := h.event hm
  obtain ⟨hmasks, hreg⟩ := h.attached rfl ha
  exact ⟨h.stage nofun, hm, htimer, hpass, ha, hmasks, hreg hm ▸ List.prefix_refl _⟩

/-- `DISP_DETACH` in poll mode goes to the stop of the timer. -/
theorem InOrder.stoppingTimer {s : State} (h : InOrder .start s) (hm : s.mode = .poll) : InOrder .timerStop s := by
  obtain ⟨hirq, hnone⟩ := h.poll hm
  have hstage := h.stage nofun
  obtain ⟨-, -, hpass, hwire⟩ := h
  refine ⟨?_, hstage.contexts.of_goto nofun, hpass, hwire⟩
  unfold ModeOk
  rw [goto_mode, hm]
  exact ⟨hirq, hnone, trivial⟩

theorem beginDispDetach_inOrder {s : State} (h : InOrder .start s) :
    InOrder (beginDispDetach s).seq.pos (beginDispDetach s) := by
  have hop : InOrder .start (setOp .dispDetach s) := h.of_view rfl
  unfold beginDispDetach
  dsimp only
  split
  · next ha =>
    split
    · next hm => exact detachFrom_inOrder (hop.freeing_all ha hm)
    · next hm => exact (hop.stoppingTimer hm).of_view rfl
  · exact hop.ended rfl .ok 0 0

/-- `SERVICE` goes to the claim of a context of the table. -/
theorem InOrder.claiming {s : State} (h : InOrder .start s) {c : Nat} (hc : c < s.cfg.numCtx) :
    InOrder (.serviceClaim c) s := by
  obtain ⟨hmode, ⟨hv, hctx, -, hpoll⟩, hpass, hwire⟩ := h
  refine ⟨hmode, ⟨hv, fun d hd => ?_, hc.trans_le (numCtx_le hv), hpoll⟩, hpass, hwire⟩
  obtain ⟨hrem, hidle, hseq, hpass⟩ := hctx d hd
  exact ⟨hrem, hidle, hseq.trans ⟨nofun, nofun⟩, hpass⟩

theorem beginService_inOrder {s : State} (c : Nat) (h : InOrder .start s) :
    InOrder (beginService c s).seq.pos (beginService c s) := by
  unfold beginService
  dsimp only
  split
  · next hc => exact (h.claiming hc).of_view rfl
  · exact h.ended rfl .configErr 0 0

theorem beginCommand_inOrder {s : State} (i : Instr) (h : InOrder .start s) :
    InOrder (beginCommand i s).seq.pos (beginCommand i s) := by
  cases i with
  | nop => exact h.ended rfl .ok 0 0
  | ringSetup cls inst owner =>
    exact (beginRingSetup_memoryStep cls inst owner s).inOrder rfl (h.of_view rfl : InOrder .start (setOp .ringSetup s))
  | ringCleanup cls inst => exact beginRingCleanup_inOrder cls inst h
  | linkPoolSetup =>
    exact (beginLinkPoolSetup_memoryStep s).inOrder rfl (h.of_view rfl : InOrder .start (setOp .linkPoolSetup s))
  | linkPoolCleanup =>
    exact (startUnwind_memoryStep .ok (setOp .linkPoolCleanup s)).inOrder rfl
      (h.of_view rfl : InOrder .start (setOp .linkPoolCleanup s))
  | dispAttach => exact beginDispAttach_inOrder h
  | dispDetach => exact beginDispDetach_inOrder h
  | service ctx => exact beginService_inOrder ctx h

/-! ### What every command keeps -/

/-- An invariant that has `SeqOk` and is kept by the first step of each command, by the completion of an illegal word and by
each further step of the sequencer is kept by one step of `SEQ` and by its run of a whole command. -/
structure SequencerKeeps (P : State → Prop) : Prop where
  seqOk : ∀ s, P s → SeqOk s
  begins : ∀ s i, P s → s.seq.pos = .start → decode s.cmd = .ok i → P (beginCommand i s)
  illegal : ∀ s, P s → s.seq.pos = .start → P (completeIllegal s)
  steps : ∀ s t, P s → seqStep s = .next t → P t

theorem decoded_eq_some {w : Word} {i : Instr} (h : decoded w = some i) : decode w = .ok i := by
  unfold decoded at h
  split at h
  · next j hj => rw [hj, Option.some.inj h]
  · cases h

/-- A word that is no command is under way only until the sequencer's first step. -/
theorem SeqOk.start_of_illegal {s : State} {e : DecodeError} (hs : SeqOk s) (hb : s.busy = true)
    (he : decode s.cmd = .error e) : s.seq.pos = .start := by
  by_contra hstart
  have hidle : s.seq.pos ≠ .idle := fun h => by simp [State.busy, h] at hb
  obtain ⟨i, hi, -⟩ := (seqOk_underWay_iff ((underWay_iff s).mpr ⟨hidle, hstart⟩)).mp hs
  rw [he] at hi
  cases hi

theorem SequencerKeeps.seqAgentStep {P : State → Prop} (hP : SequencerKeeps P) {s t : State} (hs : P s)
    (h : seqAgentStep s = .next t) : P t := by
  unfold Machine.seqAgentStep at h
  split at h
  · next hstart =>
    split at h
    · next i hi =>
      split at h
      · cases h
      · cases h
        exact hP.begins s i hs hstart (decoded_eq_some hi)
    · cases h
      exact hP.illegal s hs hstart
  · exact hP.steps s t hs h

theorem SequencerKeeps.runAccepted {P : State → Prop} (hP : SequencerKeeps P) {s t : State} (hs : P s)
    (h : runAccepted s = .next t) : P t := by
  unfold Machine.runAccepted at h
  split at h
  · next hb =>
    split at h
    · next i hi =>
      split at h
      · cases h
      · rw [exec_eq] at h
        unfold runCommand at h
        split at h
        · next hstart => exact runSeq_keeps P hP.steps _ _ t (hP.begins s i hs hstart hi) h
        · exact runSeq_keeps P hP.steps _ _ t hs h
    · next e he =>
      cases h
      exact hP.illegal s hs ((hP.seqOk s hs).start_of_illegal hb he)
  · cases h
    exact hs

theorem dispatchOk_sequencer : SequencerKeeps DispatchOk where
  seqOk _ hs := ((dispatchOk_iff _).mp hs).1
  begins s i hs hp hd :=
    (dispatchOk_iff _).mpr ⟨beginCommand_seqOk hd, beginCommand_inOrder i (hp ▸ ((dispatchOk_iff s).mp hs).2)⟩
  illegal s hs hp :=
    (dispatchOk_iff _).mpr ⟨seqOk_of_idle rfl, (hp ▸ ((dispatchOk_iff s).mp hs).2 : InOrder .start s).ended rfl _ _ _⟩
  steps _ _ hs h := seqStep_dispatchOk hs h

/-! ### Reset and the host -/

theorem reset_ctx (c : Config) (md : Mode) (x : Nat) : (State.resetWith c md).ctx x = {} := by
  unfold State.ctx State.resetWith
  by_cases h : x < 16 <;> simp [h]

/-- Reset leaves no mechanism, no context running and nothing wired (R52). -/
theorem resetWith_dispatchOk {c : Config} (hc : configValid c = true) (md : Mode) :
    DispatchOk (State.resetWith c md) := by
  have hnone : NonePending (State.resetWith c md) := fun x _ => congrArg Ctx.pend (reset_ctx c md x)
  have hmasks : EmptyMasks (State.resetWith c md) := fun x _ k _ => by
    rw [reset_ctx]
    unfold ctxMask
    split <;> rfl
  refine ⟨rfl, modeOk_of_none rfl rfl rfl hnone rfl, ⟨hc, fun x _ => ?_, trivial, trivial⟩,
    passOk_of_quiet nofun rfl, Nat.zero_le _, List.nodup_nil, List.not_mem_nil,
    fun x _ => congrArg Ctx.pend (reset_ctx c md x), hmasks, rfl, hnone⟩
  rw [CtxOk, reset_ctx]
  exact ⟨le_rfl, fun _ => ⟨rfl, rfl, rfl, rfl⟩, ⟨fun h => (nomatch h.1), nofun⟩, ⟨fun h => (nomatch h.1), nofun⟩⟩

/-- A host write either is dropped or changes the settings, sets the overrun flag or hands over a word. -/
theorem hostWriteAt_cases (width address : Nat) (v : Word) (s : State) :
    hostWriteAt width address v s = s ∨
    (∃ a b c, hostWriteAt width address v s = { s with arg0 := a, svcBudget := b, pollPeriod := c }) ∨
    hostWriteAt width address v s = raiseCmdOverrun s ∨
    (s.seq.pos = .idle ∧ hostWriteAt width address v s = accept v (decoded v) s) := by
  unfold hostWriteAt
  split
  · unfold hostWrite
    split
    · split
      · unfold writeCmd
        split
        · exact .inr (.inr (.inl rfl))
        · next hb =>
          refine .inr (.inr (.inr ⟨not_not.mp fun h => hb ?_, rfl⟩))
          simp [State.busy]
      · exact .inr (.inl ⟨_, _, _, rfl⟩)
      · exact .inr (.inl ⟨_, _, _, rfl⟩)
      · exact .inr (.inl ⟨_, _, _, rfl⟩)
      · exact .inl rfl
    · exact .inl rfl
  · exact .inl rfl

theorem accept_seqOk (w : Word) (s : State) : SeqOk (accept w (decoded w) s) := ⟨rfl, rfl, rfl⟩

theorem hostWriteAt_dispatchOk (width address : Nat) (v : Word) {s : State} (hs : DispatchOk s) :
    DispatchOk (hostWriteAt width address v s) := by
  obtain h | ⟨a, b, c, h⟩ | h | ⟨hidle, h⟩ := hostWriteAt_cases width address v s <;> rw [h]
  · exact hs
  · exact hs
  · exact hs
  · obtain ⟨-, hs⟩ := (dispatchOk_iff s).mp hs
    obtain ⟨hmode, hctx, hpass, hwire⟩ : InOrder .start s := (hidle ▸ hs : InOrder .idle s).of_plain rfl rfl
    exact (dispatchOk_iff _).mpr ⟨accept_seqOk v s, hmode, hctx, hpass, hwire⟩

/-- The events, the timer and the service agents leave the sequencer and the memory half alone. -/
theorem deliver_view (source : Nat) (s : State) :
    (deliver source s).memoryView = s.memoryView ∧ (deliver source s).seq = s.seq := by
  obtain h | ⟨r, -, h⟩ := deliver_cases source s <;> rw [h] <;> exact ⟨rfl, rfl⟩

theorem timerFire_view (s : State) : (timerFire s).memoryView = s.memoryView ∧ (timerFire s).seq = s.seq := by
  unfold timerFire
  split <;> exact ⟨rfl, rfl⟩

theorem svcStep_view (c : Nat) (s : State) :
    (svcStep c s).memoryView = s.memoryView ∧ (svcStep c s).seq = s.seq := by
  obtain ⟨x, hw⟩ := svcStep_writesOwn c s
  obtain ⟨hv, -, hq⟩ := hw.view
  exact ⟨hv, hq⟩

theorem pollStep_view (s : State) : (pollStep s).memoryView = s.memoryView ∧ (pollStep s).seq = s.seq := by
  by_cases hr : s.poll = .restart
  · unfold pollStep
    rw [hr]
    exact ⟨rfl, rfl⟩
  · obtain ⟨c, x, u, q, -, -, hw, h⟩ := pollStep_writesOwn hr
    obtain ⟨hv, -, hq⟩ := hw.view
    rw [h]
    exact ⟨hv, hq⟩

/-- A step that leaves `CMD` and the sequencer alone has only the order to keep. -/
theorem DispatchOk.of_view {s t : State} (hs : DispatchOk s) (hv : t.memoryView = s.memoryView ∧ t.seq = s.seq)
    (h : InOrder s.seq.pos t) : DispatchOk t := by
  obtain ⟨hseq, -⟩ := (dispatchOk_iff s).mp hs
  obtain ⟨hv, hq⟩ := hv
  exact (dispatchOk_iff t).mpr ⟨hseq.of_eq (congrArg MemoryView.cmd hv) hq, hq ▸ h⟩

theorem applyMove_dispatchOk (m : Move) {s t : State} (hs : DispatchOk s) (h : applyMove m s = .next t) :
    DispatchOk t := by
  obtain ⟨-, hord⟩ := (dispatchOk_iff s).mp hs
  cases m with
  | reset strap => cases h; exact resetWith_dispatchOk hord.configValid strap
  | hostWrite width address v => cases h; exact hostWriteAt_dispatchOk width address v hs
  | hostRead width address =>
    cases h
    unfold hostReadAt
    split <;> exact hs
  | irq source => cases h; exact hs.of_view (deliver_view source s) (deliver_inOrder hord source)
  | timerFire => cases h; exact hs.of_view (timerFire_view s) (timerFire_inOrder hord)
  | command => exact dispatchOk_sequencer.runAccepted hs h
  | seq => exact dispatchOk_sequencer.seqAgentStep hs h
  | svc c => cases h; exact hs.of_view (svcStep_view c s) (svcStep_inOrder hord c)
  | poll => cases h; exact hs.of_view (pollStep_view s) (pollStep_inOrder hord)
  | extWrite x v =>
    change extWrite x v s = .next t at h
    unfold extWrite at h
    split at h <;> cases h
    exact hs
  | refAlloc answers => cases h; exact hs
  | refEngine answers => cases h; exact hs
  | refPending ring count => cases h; exact hs

/-- Settles O54: the sequencer, the service agents, the events and the timer each keep the order of the parts that they
write, and no other move touches them. -/
theorem stepKeepsTheDispatcherInOrder : Obligations.StepKeepsTheDispatcherInOrder := by
  intro s t hs h
  have he := takeMove_env s
  rw [EnvOnly] at he
  refine applyMove_dispatchOk (takeMove s).1 ?_ (step_next h).2
  rw [he]
  exact hs

end Sys2Proof.Machine

namespace Sys2Proof.Machine

/-! ## The register window (R26 to R51, R72) -/

/-! ### Host accesses -/

theorem accessOk_iff (width offset : Nat) : accessOk width offset = true ↔ width = 4 ∧ offset % 4 = 0 := by
  simp [accessOk]

theorem hostWrite_of_not_accessOk {width offset : Nat} (h : ¬(width = 4 ∧ offset % 4 = 0)) (v : Word) (s : State) :
    hostWrite width offset v s = s := by
  unfold hostWrite
  rw [if_neg (mt (accessOk_iff width offset).mp h)]

/-- Only four offsets of the window take a write (R50). -/
theorem hostWrite_elsewhere {offset : Nat} (hc : offset ≠ 0x004) (ha : offset ≠ 0x008) (hb : offset ≠ 0x020)
    (hp : offset ≠ 0x024) (width : Nat) (v : Word) (s : State) : hostWrite width offset v s = s := by
  unfold hostWrite
  split
  · split
    · exact absurd rfl hc
    · exact absurd rfl ha
    · exact absurd rfl hb
    · exact absurd rfl hp
    · rfl
  · rfl

theorem windowOffset_add (c : Config) (offset : Nat) : windowOffset c (c.mgrBase + offset) = some offset := by
  unfold windowOffset
  rw [if_pos (Nat.le_add_right _ _), Nat.add_sub_cancel_left]

/-- Settles O45: a write that fails the access test or names no writable register falls through; the rest is the window's
offset arithmetic. -/
theorem hostAccessesKeepToTheWindow : Obligations.HostAccessesKeepToTheWindow := by
  intro s width offset v
  refine ⟨fun h => ?_, rfl, rfl, rfl, rfl, rfl, rfl, fun h => ?_, fun h => ?_, ?_, ?_, fun address h => ⟨?_, ?_⟩⟩
  · obtain hw | ho | ⟨hc, ha, hb, hp⟩ := h
    · exact hostWrite_of_not_accessOk (fun h => hw h.1) v s
    · exact hostWrite_of_not_accessOk (fun h => ho h.2) v s
    · exact hostWrite_elsewhere hc ha hb hp width v s
  · have hno : accessOk width offset = false :=
      Bool.eq_false_iff.mpr fun e => h.elim (· ((accessOk_iff _ _).mp e).1) (· ((accessOk_iff _ _).mp e).2)
    simp [hostRead, hno]
  · simp [hostRead, (accessOk_iff 4 offset).mpr ⟨rfl, h⟩]
  · show Host.Outcome.next (hostWriteAt width (s.cfg.mgrBase + offset) v s) = _
    rw [hostWriteAt, windowOffset_add]
  · show Host.Outcome.next (hostReadAt width (s.cfg.mgrBase + offset) s) = _
    rw [hostReadAt, windowOffset_add]
  · exact congrArg Host.Outcome.next (hostWriteAt_below h width v)
  · exact congrArg Host.Outcome.next (hostReadAt_below h width)

/-! ### Fields of a register -/

/-- A field of a register that is built from a number. -/
theorem field_ofNat {n lo len v : Nat} (hlo : lo + len ≤ 32) (h : n / 2 ^ lo % 2 ^ len = v) :
    (BitVec.ofNat 32 n).extractLsb' lo len = BitVec.ofNat len v := by
  refine BitVec.eq_of_getLsbD_eq fun i hi => ?_
  have hlt : lo + i < 32 := by omega
  rw [BitVec.getLsbD_extractLsb', BitVec.getLsbD_ofNat, BitVec.getLsbD_ofNat, ← h, Nat.testBit_mod_two_pow,
    Nat.testBit_div_two_pow]
  simp [hi, hlt, Nat.add_comm]

/-- A flag of such a register. -/
theorem flag_ofNat {n lo : Nat} {b : Bool} (hlo : lo < 32) (h : n / 2 ^ lo % 2 = bitNat b) :
    (BitVec.ofNat 32 n).getLsbD lo = b := by
  rw [BitVec.getLsbD_ofNat, Nat.testBit_eq_decide_div_mod_eq, h]
  cases b <;> simp [bitNat, hlo]

theorem bitNat_le (b : Bool) : bitNat b ≤ 1 := by
  cases b <;> decide

theorem Err.code_le (e : Err) : e.code ≤ 4 := by
  cases e <;> decide

theorem modeBit_eq (m : Mode) : modeBit m = bitNat (decide (m = .poll)) := by
  cases m <;> rfl

theorem pathBit_eq (p : IdlePath) : pathBit p = bitNat (decide (p = .scatter)) := by
  cases p <;> rfl

/-- Settles O47: each field of `STATUS` is a digit of the number it is built from. -/
theorem statusRegisterFields : Obligations.StatusRegisterFields := by
  intro s
  have hbusy := bitNat_le s.busy
  have herr := s.err.code_le
  have hvalid := bitNat_le s.pool.valid
  have hattached := bitNat_le s.disp.attached
  have hmode := bitNat_le (decide (s.mode = .poll))
  have hpath := bitNat_le (decide (s.pool.idlePath = .scatter))
  show (statusWord s).getLsbD 0 = _ ∧ (statusWord s).extractLsb' 1 3 = 0 ∧ (statusWord s).extractLsb' 4 4 = _ ∧
    (statusWord s).getLsbD 8 = _ ∧ (statusWord s).getLsbD 9 = _ ∧ (statusWord s).getLsbD 10 = _ ∧
    (statusWord s).getLsbD 11 = _ ∧ (statusWord s).extractLsb' 12 20 = 0
  unfold statusWord
  rw [modeBit_eq, pathBit_eq]
  refine ⟨flag_ofNat (by omega) (by omega), field_ofNat (v := 0) (by omega) (by omega), ?_, flag_ofNat (by omega) (by omega),
    flag_ofNat (by omega) (by omega), flag_ofNat (by omega) (by omega), flag_ofNat (by omega) (by omega),
    field_ofNat (v := 0) (by omega) (by omega)⟩
  rw [field_ofNat (v := s.err.code) (by omega) (by omega)]
  cases s.err <;> rfl

/-! ### The single registers -/

theorem Op.code_le (o : Op) : o.code ≤ 7 := by
  cases o <;> decide

theorem poolPhase_le (p : Pos) : poolPhase p ≤ 7 := by
  cases p <;> simp [poolPhase]

theorem seqPhase_le (q : Seq) : seqPhase q ≤ 7 := by
  unfold seqPhase
  split
  · decide
  · decide
  · exact poolPhase_le _
  · decide

/-- The number that `SEQ_STAT` is built from, field by field. -/
theorem seqStat_fields (s : State) :
    (readReg s 0x034).extractLsb' 0 4 = BitVec.ofNat 4 s.seq.op.code ∧
      (readReg s 0x034).extractLsb' 4 4 = BitVec.ofNat 4 (seqPhase s.seq) ∧
      (readReg s 0x034).extractLsb' 24 8 = 0 := by
  have hop := s.seq.op.code_le
  have hphase := seqPhase_le s.seq
  have hindex : seqIndex s % 2 ^ 16 < 2 ^ 16 := Nat.mod_lt _ (by omega)
  show (seqStatWord s).extractLsb' 0 4 = _ ∧ (seqStatWord s).extractLsb' 4 4 = _ ∧ (seqStatWord s).extractLsb' 24 8 = 0
  unfold seqStatWord
  exact ⟨field_ofNat (by omega) (by omega), field_ofNat (by omega) (by omega),
    field_ofNat (v := 0) (by omega) (by omega)⟩

theorem seqPhase_idle {q : Seq} (h : q.pos = .idle) : seqPhase q = 0 := by
  unfold seqPhase
  rw [h]

theorem seqPhase_setup {q : Seq} (h : q.op = .linkPoolSetup) : seqPhase q = poolPhase q.pos := by
  unfold seqPhase
  rw [h]
  cases q.pos <;> rfl

theorem seqPhase_other {q : Seq} (hp : q.pos ≠ .idle) (hn : q.op ≠ .none) (ho : q.op ≠ .linkPoolSetup) :
    seqPhase q = 1 := by
  unfold seqPhase
  split
  · contradiction
  · contradiction
  · contradiction
  · rfl

/-- `SEQ_STAT.PHASE` of `LINK_POOL_SETUP`. -/
theorem setupPhase_field {s : State} (h : s.seq.op = .linkPoolSetup) :
    (readReg s 0x034).extractLsb' 4 4 = BitVec.ofNat 4 (poolPhase s.seq.pos) := by
  rw [(seqStat_fields s).2.1, seqPhase_setup h]

/-- The whole of `SEQ_STAT` in `LINK_POOL_SETUP`. -/
theorem setupStat_eq {s : State} (h : s.seq.op = .linkPoolSetup) :
    readReg s 0x034 = BitVec.ofNat 32 (3 + 2 ^ 4 * poolPhase s.seq.pos + 2 ^ 8 * (seqIndex s % 2 ^ 16)) := by
  show seqStatWord s = _
  rw [seqStatWord, seqPhase_setup h, h]
  rfl

theorem poolInfo_fields (s : State) (hb : s.pool.numBanks ≤ 256) (hn : s.pool.numScatterBufs ≤ 256) :
    ((readReg s 0x02C).extractLsb' 0 16).toNat = s.pool.numBanks ∧
      ((readReg s 0x02C).extractLsb' 16 16).toNat = s.pool.numScatterBufs := by
  show ((BitVec.ofNat 32 (s.pool.numBanks + 2 ^ 16 * s.pool.numScatterBufs)).extractLsb' 0 16).toNat = _ ∧
    ((BitVec.ofNat 32 (s.pool.numBanks + 2 ^ 16 * s.pool.numScatterBufs)).extractLsb' 16 16).toNat = _
  rw [field_ofNat (v := s.pool.numBanks) (by omega) (by omega),
    field_ofNat (v := s.pool.numScatterBufs) (by omega) (by omega), BitVec.toNat_ofNat, BitVec.toNat_ofNat]
  omega

theorem fault_fields (s : State) :
    (readReg s 0x01C).getLsbD 0 = s.handlerOverrun ∧ (readReg s 0x01C).getLsbD 1 = s.cmdOverrun ∧
      (readReg s 0x01C).extractLsb' 2 30 = 0 := by
  have hh := bitNat_le s.handlerOverrun
  have hc := bitNat_le s.cmdOverrun
  show (faultWord s).getLsbD 0 = _ ∧ (faultWord s).getLsbD 1 = _ ∧ (faultWord s).extractLsb' 2 30 = 0
  unfold faultWord
  exact ⟨flag_ofNat (by omega) (by omega), flag_ofNat (by omega) (by omega),
    field_ofNat (v := 0) (by omega) (by omega)⟩

/-- Settles O48: each register is a field of the state or a number whose digits are its fields. -/
theorem mainRegistersShowTheirState : Obligations.MainRegistersShowTheirState := by
  intro s
  obtain ⟨hop, hphase, hrest⟩ := seqStat_fields s
  refine ⟨rfl, rfl, rfl, rfl, rfl, rfl, rfl, rfl, fault_fields s, ⟨rfl, rfl, poolInfo_fields s⟩, ?_, fun hidle => ?_,
    fun hp hn ho => ?_, fun ho => ?_, hrest, fun hidle => ?_, fun hlt => ?_⟩
  · rw [hop]
    cases s.seq.op <;> rfl
  · rw [hphase, seqPhase_idle hidle]
    rfl
  · rw [hphase, seqPhase_other hp hn ho]
    rfl
  · have hfield := setupPhase_field ho
    have hword := setupStat_eq ho
    unfold seqIndex at hword
    generalize readReg s 0x034 = w at hfield hword ⊢
    cases hq : s.seq.pos <;> rw [hq] at hfield hword
    case bankAlloc | scatterAlloc => exact hword
    case idle | registerSource | timerInit | timerStart | freeSource | detachWait | timerStop | timerFree | serviceClaim
      | serving => trivial
    all_goals exact hfield
  · have hcode : s.seq.op.code = 0 := by rw [hidle]; rfl
    have hindex : seqIndex s = 0 := by unfold seqIndex; rw [hidle]
    refine ⟨?_, ?_⟩
    · show seqStatWord s = 0
      rw [seqStatWord, hcode, seqPhase_idle (by rw [hidle]), hindex]
      rfl
    · show BitVec.ofNat 32 s.seq.cursor = 0
      rw [hidle]
      rfl
  · show (BitVec.ofNat 32 s.seq.cursor).toNat = _
    rw [BitVec.toNat_ofNat, Nat.mod_eq_of_lt hlt]

/-! ### The windows -/

theorem readReg_ctx {s : State} {c r : Nat} (hc : c < 16) (hn : c < s.cfg.numCtx) (hr : r < 0x20) :
    readReg s (0x100 + 0x20 * c + r) = ctxReg (s.ctx c) r := by
  have hplace : (0x100 + 0x20 * c + r - 0x100) / 0x20 = c := by omega
  have hreg : (0x100 + 0x20 * c + r - 0x100) % 0x20 = r := by omega
  unfold readReg
  rw [if_neg (by omega), if_pos (by omega), hplace, hreg]
  exact if_pos hn

theorem readReg_bank {s : State} {b r : Nat} (hb : b < 256) (hn : b < s.cfg.maxLinkDescBanks) (hr : r < 0x10) :
    readReg s (0x400 + 0x10 * b + r) = bankReg (s.bank b) r := by
  have hplace : (0x400 + 0x10 * b + r - 0x400) / 0x10 = b := by omega
  have hreg : (0x400 + 0x10 * b + r - 0x400) % 0x10 = r := by omega
  unfold readReg
  rw [if_neg (by omega), if_neg (by omega), if_neg (by omega), if_pos (by omega), hplace, hreg]
  exact if_pos hn

theorem readReg_scat {s : State} {n r : Nat} (hn : n < 256) (hm : n < s.cfg.maxScatterBufs) (hr : r < 8) :
    readReg s (0x1400 + 8 * n + r) = scatReg (s.scat n) r := by
  have hplace : (0x1400 + 8 * n + r - 0x1400) / 8 = n := by omega
  have hreg : (0x1400 + 8 * n + r - 0x1400) % 8 = r := by omega
  unfold readReg
  rw [if_neg (by omega), if_neg (by omega), if_neg (by omega), if_neg (by omega), if_pos (by omega), hplace, hreg]
  exact if_pos hm

theorem readReg_ring {s : State} {k i r : Nat} (hk : k < 16) (hi : i < 8) (hs : slotExists s.cfg k i = true)
    (hr : r < 0x20) : readReg s (0x2000 + 0x20 * (8 * k + i) + r) = ringReg (s.ring k i) r := by
  have hcls : (0x2000 + 0x20 * (8 * k + i) + r - 0x2000) / 0x20 / 8 = k := by omega
  have hinst : (0x2000 + 0x20 * (8 * k + i) + r - 0x2000) / 0x20 % 8 = i := by omega
  have hreg : (0x2000 + 0x20 * (8 * k + i) + r - 0x2000) % 0x20 = r := by omega
  unfold readReg
  rw [if_neg (by omega), if_neg (by omega), if_neg (by omega), if_neg (by omega), if_neg (by omega), if_neg (by omega),
    if_pos (by omega)]
  dsimp only
  rw [hcls, hinst, hreg, if_pos hs]

/-- The number in a ring's second register: bits 39:32 of the base, the flags and the owner. -/
theorem ringReg_flags (r : RingRec) :
    ringReg r 0x04 = BitVec.ofNat 32 (r.basePa.toNat / 2 ^ 32 +
      (2 ^ 8 * bitNat r.registered + 2 ^ 9 * bitNat r.lowThresIntrEn + 2 ^ 12 * r.owner.toNat)) := by
  have hhigh : paHigh r.basePa = BitVec.ofNat 32 (r.basePa.toNat / 2 ^ 32) := by
    have := r.basePa.isLt
    refine BitVec.eq_of_toNat_eq ?_
    rw [paHigh, BitVec.toNat_setWidth, BitVec.extractLsb'_toNat, Nat.shiftRight_eq_div_pow, BitVec.toNat_ofNat]
    omega
  show paHigh r.basePa + _ = _
  rw [hhigh]
  exact (BitVec.ofNat_add _ _).symm

/-- The upper half of an address in its own register. -/
theorem paHigh_fields (p : PAddr) :
    (paHigh p).extractLsb' 0 8 = p.extractLsb' 32 8 ∧ (paHigh p).extractLsb' 8 24 = 0 := by
  have hlt := (p.extractLsb' 32 8).isLt
  unfold paHigh
  constructor
  · refine BitVec.eq_of_toNat_eq ?_
    rw [BitVec.extractLsb'_toNat, BitVec.toNat_setWidth, Nat.shiftRight_zero]
    omega
  · refine BitVec.eq_of_toNat_eq ?_
    rw [BitVec.extractLsb'_toNat, BitVec.toNat_setWidth, Nat.shiftRight_eq_div_pow]
    show _ = 0
    omega

theorem ring_window {s : State} {k i : Nat} (hk : k < 16) (hi : i < 8) (hs : slotExists s.cfg k i = true) :
    let w := 0x2000 + 0x20 * (8 * k + i)
    readReg s w = (s.ring k i).basePa.extractLsb' 0 32 ∧
      (readReg s (w + 4)).extractLsb' 0 8 = (s.ring k i).basePa.extractLsb' 32 8 ∧
      (readReg s (w + 4)).getLsbD 8 = (s.ring k i).registered ∧
      (readReg s (w + 4)).getLsbD 9 = (s.ring k i).lowThresIntrEn ∧
      (readReg s (w + 4)).extractLsb' 10 2 = 0 ∧ (readReg s (w + 4)).extractLsb' 12 4 = (s.ring k i).owner ∧
      (readReg s (w + 4)).extractLsb' 16 16 = 0 ∧ readReg s (w + 8) = (s.ring k i).numEntries ∧
      readReg s (w + 12) = (s.ring k i).hnd ∧ readReg s (w + 16) = (s.ring k i).rawPa.extractLsb' 0 32 ∧
      (readReg s (w + 20)).extractLsb' 0 8 = (s.ring k i).rawPa.extractLsb' 32 8 ∧
      (readReg s (w + 20)).extractLsb' 8 24 = 0 ∧
      readReg s (w + 24) = (s.ring k i).rawSize ∧ readReg s (w + 28) = (s.ring k i).lowThres := by
  have hread {r : Nat} (hr : r < 0x20) := readReg_ring (r := r) hk hi hs hr
  have hbase := hread (r := 0) (by omega)
  obtain ⟨hraw, hraw0⟩ := paHigh_fields (s.ring k i).rawPa
  dsimp only
  rw [Nat.add_zero] at hbase
  rw [hbase, hread (r := 4) (by omega), hread (r := 8) (by omega), hread (r := 12) (by omega), hread (r := 16) (by omega),
    hread (r := 20) (by omega), hread (r := 24) (by omega), hread (r := 28) (by omega), ringReg_flags]
  generalize s.ring k i = x at hraw hraw0
  have hpa := x.basePa.isLt
  have hreg := bitNat_le x.registered
  have hlow := bitNat_le x.lowThresIntrEn
  have howner := x.owner.isLt
  refine ⟨rfl, ?_, flag_ofNat (by omega) (by omega), flag_ofNat (by omega) (by omega),
    field_ofNat (v := 0) (by omega) (by omega), ?_, field_ofNat (v := 0) (by omega) (by omega), rfl, rfl, rfl, hraw, hraw0,
    rfl, rfl⟩
  · rw [field_ofNat (v := x.basePa.toNat / 2 ^ 32) (by omega) (by omega)]
    refine BitVec.eq_of_toNat_eq ?_
    rw [BitVec.extractLsb'_toNat, Nat.shiftRight_eq_div_pow, BitVec.toNat_ofNat]
  · rw [field_ofNat (v := x.owner.toNat) (by omega) (by omega), BitVec.ofNat_toNat, BitVec.setWidth_eq]

theorem Phase.code_le (p : Phase) : p.code ≤ 5 := by
  cases p <;> decide

theorem ctx_window {s : State} {c : Nat} (hc : c < 16) (hn : c < s.cfg.numCtx) :
    let w := 0x100 + 0x20 * c
    readReg s w = (s.ctx c).txMask.setWidth 32 ∧ readReg s (w + 4) = (s.ctx c).rxDstMask.setWidth 32 ∧
      readReg s (w + 8) = (s.ctx c).rxExcMask.setWidth 32 ∧ readReg s (w + 12) = (s.ctx c).rxRelMask.setWidth 32 ∧
      readReg s (w + 16) = (s.ctx c).reoMask.setWidth 32 ∧ (readReg s (w + 20)).getLsbD 0 = (s.ctx c).pend ∧
      (readReg s (w + 20)).getLsbD 1 = (s.ctx c).busy ∧
      ((readReg s (w + 20)).extractLsb' 4 3).toNat = (s.ctx c).phase.code ∧
      (readReg s (w + 20)).extractLsb' 8 4 = (s.ctx c).ringIdx ∧ (readReg s (w + 20)).extractLsb' 2 2 = 0 ∧
      (readReg s (w + 20)).getLsbD 7 = false ∧ (readReg s (w + 20)).extractLsb' 12 20 = 0 ∧
      readReg s (w + 24) = (s.ctx c).lastWork ∧
      readReg s (w + 28) = (s.ctx c).rem := by
  have hread {r : Nat} (hr : r < 0x20) := readReg_ctx (r := r) hc hn hr
  have hbase := hread (r := 0) (by omega)
  have hflags (x : Ctx) : ctxReg x 0x14 =
      BitVec.ofNat 32 (bitNat x.pend + 2 * bitNat x.busy + 2 ^ 4 * x.phase.code + 2 ^ 8 * x.ringIdx.toNat) := rfl
  dsimp only
  rw [Nat.add_zero] at hbase
  rw [hbase, hread (r := 4) (by omega), hread (r := 8) (by omega), hread (r := 12) (by omega), hread (r := 16) (by omega),
    hread (r := 20) (by omega), hread (r := 24) (by omega), hread (r := 28) (by omega), hflags]
  generalize s.ctx c = x
  have hpend := bitNat_le x.pend
  have hbusy := bitNat_le x.busy
  have hphase := x.phase.code_le
  have hidx := x.ringIdx.isLt
  refine ⟨rfl, rfl, rfl, rfl, rfl, flag_ofNat (by omega) (by omega), flag_ofNat (by omega) (by omega), ?_, ?_,
    field_ofNat (v := 0) (by omega) (by omega), flag_ofNat (b := false) (by omega) (by show _ = 0; omega),
    field_ofNat (v := 0) (by omega) (by omega), rfl, rfl⟩
  · rw [field_ofNat (v := x.phase.code) (by omega) (by omega), BitVec.toNat_ofNat, Nat.mod_eq_of_lt (by omega)]
  · rw [field_ofNat (v := x.ringIdx.toNat) (by omega) (by omega), BitVec.ofNat_toNat, BitVec.setWidth_eq]

/-- Settles O49: a window's offset names its place and its register, and the register's number has the fields as digits. -/
theorem windowsShowTheirRecords : Obligations.WindowsShowTheirRecords := by
  intro s
  refine ⟨fun k hk i hi hs => ring_window hk hi hs, fun b hb hn => ?_, fun n hn hm => ?_, fun c hc hn => ctx_window hc hn⟩
  · have hread {r : Nat} (hr : r < 0x10) := readReg_bank (r := r) hb hn hr
    exact ⟨hread (r := 0) (by omega), hread (r := 4) (by omega), hread (r := 8) (by omega), hread (r := 12) (by omega)⟩
  · have hread {r : Nat} (hr : r < 8) := readReg_scat (r := r) hn hm hr
    exact ⟨hread (r := 0) (by omega), hread (r := 4) (by omega)⟩

/-! ### After reset -/

theorem reset_ring (c : Config) (md : Mode) (k i : Nat) : (State.resetWith c md).ring k i = {} := by
  unfold State.ring State.resetWith
  by_cases h : ringPlace k i < 128 <;> simp [h]

theorem reset_bank (c : Config) (md : Mode) (b : Nat) : (State.resetWith c md).bank b = {} := by
  unfold State.bank State.resetWith
  by_cases h : b < 256 <;> simp [h]

theorem reset_scat (c : Config) (md : Mode) (n : Nat) : (State.resetWith c md).scat n = {} := by
  unfold State.scat State.resetWith
  by_cases h : n < 256 <;> simp [h]

theorem ctxReg_zero (r : Nat) : ctxReg {} r = 0 := by
  unfold ctxReg
  split <;> rfl

theorem bankReg_zero (r : Nat) : bankReg {} r = 0 := by
  unfold bankReg
  split <;> rfl

theorem scatReg_zero (r : Nat) : scatReg {} r = 0 := by
  unfold scatReg
  split <;> rfl

theorem ringReg_zero (r : Nat) : ringReg {} r = 0 := by
  unfold ringReg
  split <;> rfl

/-- The windows beyond the single registers read 0. -/
theorem reset_window (c : Config) (strap : Mode) {offset : Nat} (h : 0x100 ≤ offset) :
    readReg (State.resetWith c strap) offset = 0 := by
  unfold readReg
  simp only [reset_ctx, reset_bank, reset_scat, reset_ring, ctxReg_zero, bankReg_zero, scatReg_zero, ringReg_zero, ite_self]
  exact if_neg (Nat.not_lt.mpr h)

theorem reset_status (c : Config) (strap : Mode) :
    statusWord (State.resetWith c strap) = match strap with | .event => 0 | .poll => 0x400 := by
  cases strap <;> rfl

/-- Settles O46: the single registers one by one, and the windows over records of zeros. -/
theorem resetRegisterValues : Obligations.ResetRegisterValues := by
  intro c strap offset
  by_cases hlow : offset < 0x100
  · rw [readReg, if_pos hlow]
    unfold mainReg
    split
    case h_1 => rfl
    case h_4 => exact reset_status c strap
    case h_16 hid _ _ hstatus _ _ _ _ hbudget hperiod _ _ _ _ _ =>
      rw [if_neg hid, if_neg hstatus, if_neg hbudget, if_neg hperiod]
    all_goals rfl
  · rw [reset_window c strap (Nat.le_of_not_lt hlow), if_neg (by omega), if_neg (by omega), if_neg (by omega),
      if_neg (by omega)]

end Sys2Proof.Machine

namespace Sys2Proof.Machine

/-! ## The plan of the pool and the regions it asks for (R113, R131 to R142) -/

/-- What R15 (c) to (e) ask of the pool parameters. -/
structure PoolLimits (c : Config) : Prop where
  alignPos : 0 < c.linkDescAlign
  descPos : 1 ≤ c.linkDescSize
  word : c.maxAllocSize ≤ wordMax
  oneDesc : c.linkDescSize + alignSlack c ≤ c.maxAllocSize
  oneEntry : idleEntrySize ≤ c.scatterBufSize
  oneBuf : c.scatterBufSize ≤ c.maxAllocSize
  banks : c.maxLinkDescBanks ≤ 256
  bufs : c.maxScatterBufs ≤ 256

theorem poolLimits {c : Config} (hc : configValid c = true) : PoolLimits c := by
  obtain ⟨-, hpool, -, -⟩ := (configValid_iff c).mp hc
  obtain ⟨⟨e, he⟩, hdesc, hmax, hone, hentry, hbuf, -, hbanks, -, hbufs, -⟩ := (poolParamsValid_iff c).mp hpool
  exact ⟨he ▸ Nat.two_pow_pos e, hdesc, hmax, hone, hentry, hbuf, hbanks, hbufs⟩

/-! ### The banks -/

theorem descsPerBank_pos {c : Config} (hl : PoolLimits c) : 1 ≤ descsPerBank c :=
  Nat.div_pos (by have := hl.oneDesc; omega) hl.descPos

theorem descsPerBank_memory {c : Config} (hl : PoolLimits c) :
    descsPerBank c * c.linkDescSize + alignSlack c ≤ c.maxAllocSize := by
  have hle : descsPerBank c * c.linkDescSize ≤ c.maxAllocSize - alignSlack c := Nat.div_mul_le_self _ _
  have := hl.oneDesc
  omega

/-- A bank of the plan holds its descriptors at any alignment, and is not larger than the host allows (R136). -/
theorem bank_fits {c : Config} (hl : PoolLimits c) (total b : Nat) :
    bankCount c total b * c.linkDescSize + alignSlack c ≤ bankSize c total b ∧ bankSize c total b ≤ c.maxAllocSize := by
  have hfull := descsPerBank_memory hl
  unfold bankCount bankSize
  split
  · next hone => exact ⟨le_rfl, of_decide_eq_true hone⟩
  · split
    · exact ⟨hfull, le_rfl⟩
    · have hlt : total % descsPerBank c < descsPerBank c := Nat.mod_lt _ (descsPerBank_pos hl)
      have hle := Nat.mul_le_mul_right c.linkDescSize hlt.le
      exact ⟨le_rfl, by omega⟩

/-- No bank of the plan is empty. -/
theorem bankCount_pos {c : Config} (hl : PoolLimits c) {total b : Nat} (ht : 1 ≤ total) (hb : b < banksNeeded c total) :
    1 ≤ bankCount c total b := by
  unfold banksNeeded at hb
  unfold bankCount
  split
  · exact ht
  · next hone =>
    rw [if_neg hone] at hb
    split
    · exact descsPerBank_pos hl
    · split at hb <;> omega

theorem banksNeeded_pos {c : Config} {total : Nat} (ht : 1 ≤ total) : 0 < banksNeeded c total := by
  unfold banksNeeded
  split
  · exact Nat.one_pos
  · by_cases h : total % descsPerBank c = 0
    · have hq : total / descsPerBank c ≠ 0 := fun hq => by
        have := Nat.div_add_mod total (descsPerBank c)
        rw [hq, h] at this
        omega
      exact Nat.add_pos_left (Nat.pos_of_ne_zero hq) _
    · rw [if_neg h]
      exact Nat.succ_pos _

/-- The banks hold every descriptor of the plan (R136). -/
theorem bankCount_sum (c : Config) (total : Nat) :
    ((List.range (banksNeeded c total)).map (bankCount c total)).sum = total := by
  by_cases hone : oneBank c total
  · simp [banksNeeded, bankCount, hone]
  · have hcount (b : Nat) : bankCount c total b =
        if b < total / descsPerBank c then descsPerBank c else total % descsPerBank c := by
      rw [bankCount, if_neg hone]
    have hfull : ((List.range (total / descsPerBank c)).map (bankCount c total)).sum =
        total / descsPerBank c * descsPerBank c := by
      rw [List.map_congr_left (g := fun _ => descsPerBank c) fun b hb => by
        rw [hcount, if_pos (List.mem_range.mp hb)], List.map_const', List.sum_replicate, List.length_range,
        smul_eq_mul]
    have hdiv := Nat.div_add_mod' total (descsPerBank c)
    rw [banksNeeded, if_neg hone]
    split
    · next h0 => rw [Nat.add_zero, hfull]; omega
    · rw [List.range_succ, List.map_append, List.sum_append, hfull, List.map_singleton, List.sum_singleton, hcount,
        if_neg (Nat.lt_irrefl _), hdiv]

/-- What phase `PLAN` grants (R134, R137, R139). -/
theorem planTotal_some {c : Config} {m total : Nat} (h : planTotal c m = some total) :
    1 ≤ total ∧ total ≤ 2 ^ 31 ∧ isPow2 total = true ∧ banksNeeded c total ≤ c.maxLinkDescBanks ∧
      scatterPlanOk c total = true := by
  unfold planTotal at h
  split_ifs at h with hm hraw
  dsimp only at h
  split_ifs at h with hbanks hscat
  cases h
  obtain ⟨k, hk⟩ := exists_pow2Ceil_eq (rawCount c m)
  exact ⟨hk ▸ Nat.one_le_two_pow, (pow2Ceil_le_two_pow_iff _ 31).mpr (Nat.le_of_not_lt hraw),
    (isPow2_iff _).mpr ⟨k, hk⟩, Nat.le_of_not_lt hbanks, hscat⟩

/-! ### Aligned bases -/

theorem alignedPa_toNat {pa : PAddr} {a : Nat} (ha : 0 < a) (h : pa.toNat + (a - 1) < addressSpace) :
    (alignedPa pa a).toNat = alignUp pa.toNat a := by
  have hle := alignUp_le_add pa.toNat a
  rw [alignedPa, BitVec.toNat_ofNat]
  refine Nat.mod_eq_of_lt ?_
  unfold addressSpace at h
  omega

/-- The base that goes with an aligned address stands as far above the raw one (R68). -/
theorem offsetVa_toNat {va : VAddr} {slack : Nat} (h : va.toNat + slack < 2 ^ 64) :
    (offsetVa va slack).toNat = va.toNat + slack := by
  rw [offsetVa, if_pos h, BitVec.toNat_add, BitVec.toNat_ofNat]
  omega

/-- The size of a region that fits a word is stored as it is. -/
theorem size_toNat {size : Nat} (h : size ≤ wordMax) : (BitVec.ofNat 32 size).toNat = size := by
  rw [BitVec.toNat_ofNat]
  unfold wordMax at h
  omega

theorem bankRecord_ok {c : Config} (hl : PoolLimits c) {total b : Nat} (ht : 1 ≤ total) (hb : b < banksNeeded c total)
    {va : VAddr} {pa : PAddr} (hfit : pa.toNat + bankSize c total b ≤ addressSpace) :
    BankOk c total b (bankRecord c ⟨va, pa, BitVec.ofNat 32 (bankSize c total b)⟩ (bankCount c total b)) := by
  obtain ⟨hmem, hmax⟩ := bank_fits hl total b
  have hcount := Nat.mul_le_mul_left (bankCount c total b) hl.descPos
  have hpos := Nat.mul_le_mul (bankCount_pos hl ht hb) hl.descPos
  have hsize := size_toNat (hmax.trans hl.word)
  have halign := hl.alignPos
  have hword := hl.word
  unfold alignSlack at hmem
  have hbase : (alignedPa pa c.linkDescAlign).toNat = alignUp pa.toNat c.linkDescAlign := alignedPa_toNat halign (by omega)
  have hle := alignUp_le_add pa.toNat c.linkDescAlign
  have hge := le_alignUp halign pa.toNat
  refine ⟨size_toNat (by omega), hsize, hmax, ?_, ?_, ?_, ?_⟩
  · exact hbase ▸ alignUp_mod _ _
  · exact hbase ▸ hge
  · show (alignedPa pa c.linkDescAlign).toNat + _ ≤ pa.toNat + (BitVec.ofNat 32 (bankSize c total b)).toNat
    omega
  · show pa.toNat + (BitVec.ofNat 32 (bankSize c total b)).toNat ≤ addressSpace
    omega

/-! ### Rings -/

/-- A class that exists has a code below 16 and at most 8 instances (R12). -/
theorem slotExists_bounds {c : Config} (hc : configValid c = true) {k i : Nat} (h : slotExists c k i = true) :
    k < 16 ∧ i < 8 := by
  obtain ⟨hclasses, -⟩ := (configValid_iff c).mp hc
  obtain ⟨-, -, hinst, -⟩ := (classesValid_iff c).mp hclasses
  unfold slotExists at h
  rw [Bool.and_eq_true, decide_eq_true_eq] at h
  obtain ⟨hv, hi⟩ := h
  have hk : k < 16 := by
    by_contra hk
    have : classOf c k = {} := by simp [classOf, Nat.le_of_not_lt hk]
    rw [this] at hv
    cases hv
  obtain ⟨-, h8⟩ := hinst k hk hv
  exact ⟨hk, hi.trans_le h8⟩

/-- The terms of a ring's size (R111, R112). -/
theorem class_limits {c : Config} (hc : configValid c = true) {k i : Nat} (h : slotExists c k i = true) :
    1 ≤ (classOf c k).entrySize.toNat ∧ 0 < (classOf c k).align := by
  obtain ⟨hclasses, -⟩ := (configValid_iff c).mp hc
  obtain ⟨halign, hentry, -⟩ := (classesValid_iff c).mp hclasses
  have hk := (slotExists_bounds hc h).1
  unfold slotExists at h
  rw [Bool.and_eq_true] at h
  obtain ⟨-, h8⟩ := halign k hk
  exact ⟨hentry k hk h.1, by omega⟩

theorem idle_entrySize {c : Config} (hc : configValid c = true) : (classOf c idleClass).entrySize = 8 := by
  obtain ⟨hclasses, -⟩ := (configValid_iff c).mp hc
  obtain ⟨-, -, -, -, h, -⟩ := (classesValid_iff c).mp hclasses
  exact h

theorem ringRecord_ok {c : Config} (hc : configValid c = true) {r : RingReq} {a : Alloc} {h : Handle}
    (hs : slotExists c r.cls r.inst = true) (hn : r.entries ≠ 0) (hword : ringSize c r.cls r.entries ≤ wordMax)
    (hsize : a.size.toNat = ringSize c r.cls r.entries) (hfit : a.pa.toNat + a.size.toNat ≤ addressSpace) (h0 : h ≠ 0) :
    RingOk c r.cls r.inst (ringRecord c r a h) := by
  obtain ⟨hentry, halign⟩ := class_limits hc hs
  have hmul := Nat.mul_le_mul_left r.entries hentry
  rw [ringSize] at hword hsize
  have hbase : (alignedPa a.pa (classOf c r.cls).align).toNat = alignUp a.pa.toNat (classOf c r.cls).align :=
    alignedPa_toNat halign (by omega)
  have hle := alignUp_le_add a.pa.toNat (classOf c r.cls).align
  have hge := le_alignUp halign a.pa.toNat
  have hcount : (BitVec.ofNat 32 r.entries).toNat = r.entries := size_toNat (by omega)
  unfold RingOk
  refine (if_pos rfl).mpr ⟨hs, rfl, h0, ?_, hbase ▸ hge, ?_, hbase ▸ alignUp_mod _ _, hfit, fun hva => ?_⟩
  · show 1 ≤ (BitVec.ofNat 32 r.entries).toNat
    omega
  · show (alignedPa a.pa (classOf c r.cls).align).toNat + (BitVec.ofNat 32 r.entries).toNat * _ ≤ _
    rw [hbase, hcount]
    show alignUp a.pa.toNat (classOf c r.cls).align + r.entries * (classOf c r.cls).entrySize.toNat ≤
      a.pa.toNat + a.size.toNat
    omega
  · change a.va.toNat + ((alignedPa a.pa (classOf c r.cls).align).toNat - a.pa.toNat) < 2 ^ 64 at hva
    show (offsetVa a.va (alignUp a.pa.toNat (classOf c r.cls).align - a.pa.toNat)).toNat =
      a.va.toNat + ((alignedPa a.pa (classOf c r.cls).align).toNat - a.pa.toNat)
    rw [hbase] at hva ⊢
    exact offsetVa_toNat hva

/-! ### The idle list -/

theorem entriesPerScatterBuf_pos {c : Config} (hl : PoolLimits c) : 1 ≤ entriesPerScatterBuf c :=
  Nat.div_pos hl.oneEntry (by decide)

/-- The offset of the last entry in its scatter buffer fits a word (R151). -/
theorem tail_fits {c : Config} (hl : PoolLimits c) (n : Nat) :
    idleEntrySize * (n % entriesPerScatterBuf c) ≤ wordMax := by
  have hlt : n % entriesPerScatterBuf c < entriesPerScatterBuf c := Nat.mod_lt _ (entriesPerScatterBuf_pos hl)
  have hmul : entriesPerScatterBuf c * idleEntrySize ≤ c.scatterBufSize := Nat.div_mul_le_self _ _
  have := hl.oneBuf
  have := hl.word
  unfold idleEntrySize at hmul ⊢
  omega

theorem scatterBufsNeeded_pos {c : Config} (hl : PoolLimits c) {total : Nat} (ht : 1 ≤ total) :
    0 < scatterBufsNeeded c total := by
  have := hl.oneEntry
  unfold idleEntrySize at this
  refine Nat.div_pos ?_ (by omega)
  unfold idleListMemory idleEntrySize
  omega

theorem scatterBufsNeeded_le {c : Config} {total : Nat} (hp : scatterPlanOk c total = true)
    (hs : idlePathFor c total = .scatter) : scatterBufsNeeded c total ≤ c.maxScatterBufs := by
  unfold scatterPlanOk at hp
  rw [hs] at hp
  simp only [Bool.and_eq_true, decide_eq_true_eq] at hp
  exact hp.1

end Sys2Proof.Machine

namespace Sys2Proof.Machine

/-! ## The books: live regions and registered handles against the records (R34, R40, R49, R210)

`Books held gap s` is what `Consistent s` says of the tables, with the allocation that the sequencer holds and the ring that
it has half cleaned up as parameters. It depends on `s` through `State.ledger` only. -/

/-- The regions that the records name (R49 (c)). -/
def recordedRegions (s : State) : List Alloc :=
  ringPlaces.filterMap (fun p => ringRegion (s.ring p.1 p.2)) ++
    ((List.range s.pool.numBanks).map fun b => ⟨(s.bank b).rawVa, (s.bank b).rawPa, (s.bank b).size⟩) ++
    ((List.range s.pool.numScatterBufs).map fun n =>
      ⟨(s.scat n).va, (s.scat n).pa, BitVec.ofNat 32 s.cfg.scatterBufSize⟩)

/-- The handle that a ring's record names, but in the gap of its cleanup (R49 (d), R120). -/
def recordedHandle (gap : Option (Nat × Nat)) (s : State) (p : Nat × Nat) : Option Handle :=
  if (s.ring p.1 p.2).registered && !decide (gap = some p) then some (s.ring p.1 p.2).hnd else none

structure Books (held : List Alloc) (gap : Option (Nat × Nat)) (s : State) : Prop where
  valid : configValid s.cfg = true
  live : LiveOk s
  rings : ∀ k < 16, ∀ i < 8, RingOk s.cfg k i (s.ring k i)
  tables : TablesOk s
  regions : s.live.Perm (recordedRegions s ++ held)
  handles : s.engReg.Perm (ringPlaces.filterMap (recordedHandle gap s))

/-- What the books are about. -/
structure Ledger where
  cfg : Config
  rings : Vector RingRec 128
  banks : Vector Bank 256
  scats : Vector Scatter 256
  live : List Alloc
  engReg : List Handle
  totalLinkDescs : Word
  numBanks : Nat
  numScatterBufs : Nat

def State.ledger (s : State) : Ledger :=
  ⟨s.cfg, s.rings, s.banks, s.scats, s.live, s.engReg, s.pool.totalLinkDescs, s.pool.numBanks, s.pool.numScatterBufs⟩

theorem Books.of_ledger {held : List Alloc} {gap : Option (Nat × Nat)} {s t : State} (h : Books held gap s)
    (e : t.ledger = s.ledger) : Books held gap t := by
  have hcfg : t.cfg = s.cfg := congrArg Ledger.cfg e
  have hrings : t.rings = s.rings := congrArg Ledger.rings e
  have hbanks : t.banks = s.banks := congrArg Ledger.banks e
  have hscats : t.scats = s.scats := congrArg Ledger.scats e
  have hlive : t.live = s.live := congrArg Ledger.live e
  have heng : t.engReg = s.engReg := congrArg Ledger.engReg e
  have htotal : t.pool.totalLinkDescs = s.pool.totalLinkDescs := congrArg Ledger.totalLinkDescs e
  have hnb : t.pool.numBanks = s.pool.numBanks := congrArg Ledger.numBanks e
  have hns : t.pool.numScatterBufs = s.pool.numScatterBufs := congrArg Ledger.numScatterBufs e
  have hring (k i : Nat) : t.ring k i = s.ring k i := by rw [State.ring, hrings]; rfl
  have hbank (b : Nat) : t.bank b = s.bank b := by rw [State.bank, hbanks]; rfl
  have hscat (n : Nat) : t.scat n = s.scat n := by rw [State.scat, hscats]; rfl
  obtain ⟨hv, hl, hr, htab, hreg, hh⟩ := h
  refine ⟨hcfg ▸ hv, ?_, ?_, ?_, ?_, ?_⟩
  · unfold LiveOk at hl ⊢; rw [hlive]; exact hl
  · simp only [hcfg, hring]; exact hr
  · simp only [TablesOk, poolTotal, hcfg, hnb, hns, htotal, hbank, hscat] at htab ⊢; exact htab
  · simp only [recordedRegions, hcfg, hlive, hnb, hns, hring, hbank, hscat] at hreg ⊢; exact hreg
  · have hrec : recordedHandle gap t = recordedHandle gap s := funext fun p => by rw [recordedHandle, hring]; rfl
    rw [heng, hrec]
    exact hh

/-! ### Lists -/

/-- Two selections from a list without repetition that differ at one place, where the second takes nothing. -/
theorem filterMap_perm_cons {α β : Type} {f g : α → Option β} {l : List α} (hl : l.Nodup) {p : α} {b : β} (hp : p ∈ l)
    (hf : f p = some b) (hg : g p = none) (hother : ∀ q ∈ l, q ≠ p → f q = g q) :
    (l.filterMap f).Perm (b :: l.filterMap g) := by
  induction l with
  | nil => cases hp
  | cons x l ih =>
    obtain ⟨hx, hl⟩ := List.nodup_cons.mp hl
    by_cases hxp : x = p
    · subst hxp
      have htail : l.filterMap f = l.filterMap g := List.filterMap_congr fun q hq =>
        hother q (List.mem_cons_of_mem _ hq) fun e => hx (e ▸ hq)
      rw [List.filterMap_cons_some hf, List.filterMap_cons_none hg, htail]
    · have htail := ih hl ((List.mem_cons.mp hp).resolve_left (Ne.symm hxp)) fun q hq =>
        hother q (List.mem_cons_of_mem _ hq)
      have hhead := hother x List.mem_cons_self hxp
      rw [List.filterMap_cons, List.filterMap_cons, hhead]
      cases g x with
      | none => exact htail
      | some y => exact (htail.cons y).trans (List.Perm.swap b y _)

section
variable {α : Type} {l r r' : List α} {a : α}

theorem perm_hold (h : l.Perm (r ++ [])) : (l ++ [a]).Perm (r ++ [a]) := by
  rw [List.append_nil] at h
  exact h.append_right [a]

theorem perm_drop [DecidableEq α] (h : l.Perm (r ++ [a])) : (l.erase a).Perm (r ++ []) := by
  rw [List.append_nil]
  simpa using (h.trans (List.perm_append_singleton a r)).erase a

theorem perm_commit (h : l.Perm (r ++ [a])) (hr : r'.Perm (a :: r)) : l.Perm (r' ++ []) := by
  rw [List.append_nil]
  exact (h.trans (List.perm_append_singleton a r)).trans hr.symm

theorem perm_release [DecidableEq α] (h : l.Perm (r ++ [])) (hr : r.Perm (a :: r')) : (l.erase a).Perm (r' ++ []) := by
  rw [List.append_nil] at h ⊢
  simpa using (h.trans hr).erase a

end

/-! ### Regions -/

theorem apart_symm {a : Alloc} {pa size : Nat} (h : apart pa size a = true) {b : Alloc} (hpa : b.pa.toNat = pa)
    (hsize : b.size.toNat = size) : apart a.pa.toNat a.size.toNat b = true := by
  unfold apart at h ⊢
  rw [hpa, hsize]
  simp only [Bool.or_eq_true, decide_eq_true_eq] at h ⊢
  omega

/-- A region that the host answers is held (R210). -/
theorem Books.alloc {s : State} (h : Books [] none s) {size : Nat} {va : VAddr} {pa : PAddr} (hword : size ≤ wordMax)
    (ha : allocAdmissible s size (va, pa) = true) :
    Books [⟨va, pa, BitVec.ofNat 32 size⟩] none { s with live := s.live ++ [⟨va, pa, BitVec.ofNat 32 size⟩] } := by
  have hsize := size_toNat hword
  unfold allocAdmissible at ha
  rw [Bool.and_eq_true, decide_eq_true_eq, List.all_eq_true] at ha
  obtain ⟨hfit, hapart⟩ := ha
  obtain ⟨hin, hpair⟩ := h.live
  refine ⟨h.valid, ⟨fun a hmem => ?_, List.pairwise_append.mpr ⟨hpair, List.pairwise_singleton _ _, fun a hmem b hb => ?_⟩⟩,
    h.rings, h.tables, perm_hold h.regions, h.handles⟩
  · rcases List.mem_append.mp hmem with hmem | hmem
    · exact hin a hmem
    · rw [List.mem_singleton.mp hmem]
      show pa.toNat + (BitVec.ofNat 32 size).toNat ≤ addressSpace
      rw [hsize]
      exact hfit
  · rw [List.mem_singleton.mp hb]
    exact apart_symm (hapart a hmem) rfl hsize

theorem LiveOk.erase {s : State} (h : LiveOk s) (a : Alloc) : LiveOk { s with live := s.live.erase a } := by
  obtain ⟨hin, hpair⟩ := h
  exact ⟨fun b hb => hin b (List.mem_of_mem_erase hb), hpair.sublist List.erase_sublist⟩

/-- The held region is given back. -/
theorem Books.free {s : State} {a : Alloc} (h : Books [a] none s) : Books [] none { s with live := s.live.erase a } :=
  ⟨h.valid, h.live.erase a, h.rings, h.tables, perm_drop h.regions, h.handles⟩

/-! ### Rings -/

theorem ringPlaces_nodup : ringPlaces.Nodup := by
  show (List.range 16 ×ˢ List.range 8).Nodup
  exact List.nodup_range.product List.nodup_range

theorem mem_ringPlaces {p : Nat × Nat} : p ∈ ringPlaces ↔ p.1 < 16 ∧ p.2 < 8 := by
  show p ∈ List.range 16 ×ˢ List.range 8 ↔ _
  rw [List.mem_product, List.mem_range, List.mem_range]

theorem setRing_ring_place {k i : Nat} {p : Nat × Nat} (hp : p ∈ ringPlaces) (hne : p ≠ (k, i)) (r : RingRec) (s : State) :
    (setRing k i r s).ring p.1 p.2 = s.ring p.1 p.2 := by
  obtain ⟨hk, hi⟩ := mem_ringPlaces.mp hp
  exact setRing_ring_other hk hi (fun ⟨e1, e2⟩ => hne (Prod.ext e1.symm e2.symm)) r s

/-- A ring's record is everywhere, or it is of one of the 128 places. -/
theorem ring_place_of_registered {s : State} {k i : Nat} (h : (s.ring k i).registered = true) : k < 16 ∧ i < 8 := by
  by_contra hc
  rw [ring_outside (by omega)] at h
  cases h

/-- The records of the rings, with the record of one place replaced. -/
theorem rings_setRing {s : State} {k i : Nat} {r : RingRec} (h : ∀ k < 16, ∀ i < 8, RingOk s.cfg k i (s.ring k i))
    (hr : RingOk s.cfg k i r) : ∀ k' < 16, ∀ i' < 8, RingOk s.cfg k' i' ((setRing k i r s).ring k' i') := by
  intro k' hk' i' hi'
  by_cases he : k = k' ∧ i = i'
  · obtain ⟨rfl, rfl⟩ := he
    rw [setRing_ring_same hk' hi']
    exact hr
  · rw [setRing_ring_other hk' hi' he]
    exact h k' hk' i' hi'

/-- The regions on record, with a ring's record stored where there was none. -/
theorem recordedRegions_setRing {s : State} {k i : Nat} (hk : k < 16) (hi : i < 8) {x : RingRec}
    (hno : (s.ring k i).registered = false) (hx : x.registered = true) :
    (recordedRegions (setRing k i x s)).Perm (⟨x.rawVa, x.rawPa, x.rawSize⟩ :: recordedRegions s) := by
  have hmem : (k, i) ∈ ringPlaces := mem_ringPlaces.mpr ⟨hk, hi⟩
  have hperm := filterMap_perm_cons ringPlaces_nodup hmem (f := fun p => ringRegion ((setRing k i x s).ring p.1 p.2))
    (g := fun p => ringRegion (s.ring p.1 p.2)) (b := ⟨x.rawVa, x.rawPa, x.rawSize⟩)
    (by simp [setRing_ring_same hk hi, ringRegion, hx]) (by simp [ringRegion, hno])
    fun q hq hne => by simp only [setRing_ring_place hq hne]
  exact (hperm.append_right _).append_right _

/-- The handles on record, with a ring's record stored where there was none. -/
theorem recordedHandles_setRing {s : State} {k i : Nat} (hk : k < 16) (hi : i < 8) {x : RingRec}
    (hno : (s.ring k i).registered = false) (hx : x.registered = true) :
    (ringPlaces.filterMap (recordedHandle none (setRing k i x s))).Perm
      (x.hnd :: ringPlaces.filterMap (recordedHandle none s)) := by
  have hmem : (k, i) ∈ ringPlaces := mem_ringPlaces.mpr ⟨hk, hi⟩
  refine filterMap_perm_cons ringPlaces_nodup hmem ?_ ?_ fun q hq hne => ?_
  · simp [recordedHandle, setRing_ring_same hk hi, hx]
  · simp [recordedHandle, hno]
  · simp only [recordedHandle, setRing_ring_place hq hne]

/-- A ring is set up: its record names the held region and the new handle (R110, R217). -/
theorem Books.register {s : State} {k i : Nat} {x : RingRec} (h : Books [⟨x.rawVa, x.rawPa, x.rawSize⟩] none s)
    (hk : k < 16) (hi : i < 8) (hno : (s.ring k i).registered = false) (hx : x.registered = true)
    (hok : RingOk s.cfg k i x) : Books [] none (setRing k i x { s with engReg := s.engReg ++ [x.hnd] }) := by
  refine ⟨h.valid, h.live, rings_setRing h.rings hok, h.tables,
    perm_commit h.regions (recordedRegions_setRing hk hi hno hx), ?_⟩
  calc s.engReg ++ [x.hnd]
    _ |>.Perm (x.hnd :: s.engReg) := List.perm_append_singleton _ _
    _ |>.Perm (x.hnd :: ringPlaces.filterMap (recordedHandle none s)) := h.handles.cons _
    _ |>.Perm _ := (recordedHandles_setRing hk hi hno hx).symm

/-- The first half of a ring's cleanup: the engine drops its handle (R118, R120). -/
theorem Books.unregister {s : State} {k i : Nat} (h : Books [] none s) (hr : (s.ring k i).registered = true) :
    Books [] (some (k, i)) { s with engReg := s.engReg.erase (s.ring k i).hnd } := by
  obtain ⟨hk, hi⟩ := ring_place_of_registered hr
  have hperm : (ringPlaces.filterMap (recordedHandle none s)).Perm
      ((s.ring k i).hnd :: ringPlaces.filterMap (recordedHandle (some (k, i)) s)) := by
    refine filterMap_perm_cons ringPlaces_nodup (p := (k, i)) (mem_ringPlaces.mpr ⟨hk, hi⟩) ?_ ?_ fun q _ hne => ?_
    · simp [recordedHandle, hr]
    · simp [recordedHandle]
    · simp [recordedHandle, Ne.symm hne]
  have herase := (h.handles.trans hperm).erase (s.ring k i).hnd
  rw [List.erase_cons_head] at herase
  exact ⟨h.valid, h.live, h.rings, h.tables, h.regions, herase⟩

/-- The second half: the region is given back and the record cleared (R118, R120). -/
theorem Books.freeRing {s : State} {k i : Nat} (h : Books [] (some (k, i)) s) (hr : (s.ring k i).registered = true) :
    Books [] none (setRing k i {}
      { s with live := s.live.erase ⟨(s.ring k i).rawVa, (s.ring k i).rawPa, (s.ring k i).rawSize⟩ }) := by
  obtain ⟨hk, hi⟩ := ring_place_of_registered hr
  have hsame := setRing_ring_same hk hi {} s
  have hmem : (k, i) ∈ ringPlaces := mem_ringPlaces.mpr ⟨hk, hi⟩
  have hnone : ringRegion ((setRing k i {} s).ring k i) = none := by rw [hsame]; rfl
  have hregions : (recordedRegions s).Perm
      (⟨(s.ring k i).rawVa, (s.ring k i).rawPa, (s.ring k i).rawSize⟩ :: recordedRegions (setRing k i {} s)) := by
    have hperm := filterMap_perm_cons ringPlaces_nodup hmem (f := fun p => ringRegion (s.ring p.1 p.2))
      (g := fun p => ringRegion ((setRing k i {} s).ring p.1 p.2))
      (b := ⟨(s.ring k i).rawVa, (s.ring k i).rawPa, (s.ring k i).rawSize⟩)
      (by simp [ringRegion, hr]) hnone fun q hq hne => by simp only [setRing_ring_place hq hne]
    exact (hperm.append_right _).append_right _
  have hhandles : ringPlaces.filterMap (recordedHandle none (setRing k i {} s)) =
      ringPlaces.filterMap (recordedHandle (some (k, i)) s) := List.filterMap_congr fun q hq => by
    by_cases hq' : q = (k, i)
    · rw [hq', recordedHandle, hsame]
      simp [recordedHandle]
    · simp [recordedHandle, setRing_ring_place hq hq', Ne.symm hq']
  refine ⟨h.valid, h.live.erase _, rings_setRing h.rings (by simp [RingOk]), h.tables,
    perm_release h.regions hregions, ?_⟩
  exact h.handles.trans (List.Perm.of_eq hhandles.symm)

/-! ### Banks and scatter buffers -/

/-- A table of `n` places whose place `m` is written. -/
theorem table_update {α : Type} {P Q : Nat → α → Prop} {f g : Nat → α} {n n' m : Nat} {x : α}
    (h : ∀ b < 256, if b < n then P b (f b) else Q b (f b)) (hsame : g m = x) (hother : ∀ b, b ≠ m → g b = f b)
    (hx : if m < n' then P m x else Q m x) (hn : ∀ b, b ≠ m → (b < n' ↔ b < n)) :
    ∀ b < 256, if b < n' then P b (g b) else Q b (g b) := by
  intro b hb
  by_cases hbm : b = m
  · rw [hbm, hsame]
    exact hx
  · rw [hother b hbm]
    simpa only [hn b hbm] using h b hb

theorem perm_middle_last {α : Type} (a b c : List α) (x : α) : (a ++ (b ++ [x]) ++ c).Perm (x :: (a ++ b ++ c)) := by
  rw [← List.append_assoc a b [x], List.append_assoc _ [x] c]
  exact List.perm_middle

theorem perm_last {α : Type} (a b : List α) (x : α) : (a ++ (b ++ [x])).Perm (x :: (a ++ b)) := by
  rw [← List.append_assoc]
  exact List.perm_append_singleton _ _

/-- `t` has one bank more than `s`. -/
theorem recordedRegions_bank {s t : State} {n : Nat} (hcfg : t.cfg = s.cfg) (hring : t.rings = s.rings)
    (hscat : t.scats = s.scats) (hns : t.pool.numScatterBufs = s.pool.numScatterBufs) (hs : s.pool.numBanks = n)
    (ht : t.pool.numBanks = n + 1) (hbank : ∀ b, b ≠ n → t.bank b = s.bank b) :
    (recordedRegions t).Perm (⟨(t.bank n).rawVa, (t.bank n).rawPa, (t.bank n).size⟩ :: recordedRegions s) := by
  have hbanks : ((List.range n).map fun b => (⟨(t.bank b).rawVa, (t.bank b).rawPa, (t.bank b).size⟩ : Alloc)) =
      (List.range n).map fun b => ⟨(s.bank b).rawVa, (s.bank b).rawPa, (s.bank b).size⟩ :=
    List.map_congr_left fun b hb => by rw [hbank b (Nat.ne_of_lt (List.mem_range.mp hb))]
  unfold recordedRegions State.ring State.scat
  rw [hcfg, hring, hscat, hns, hs, ht, List.range_succ, List.map_append, hbanks]
  exact perm_middle_last _ _ _ _

/-- `t` has one scatter buffer more than `s`. -/
theorem recordedRegions_scat {s t : State} {n : Nat} (hcfg : t.cfg = s.cfg) (hring : t.rings = s.rings)
    (hbank : t.banks = s.banks) (hnb : t.pool.numBanks = s.pool.numBanks) (hs : s.pool.numScatterBufs = n)
    (ht : t.pool.numScatterBufs = n + 1) (hscat : ∀ m, m ≠ n → t.scat m = s.scat m) :
    (recordedRegions t).Perm (⟨(t.scat n).va, (t.scat n).pa, BitVec.ofNat 32 t.cfg.scatterBufSize⟩ :: recordedRegions s) := by
  have hscats : ((List.range n).map fun m => (⟨(t.scat m).va, (t.scat m).pa, BitVec.ofNat 32 t.cfg.scatterBufSize⟩ : Alloc)) =
      (List.range n).map fun m => ⟨(s.scat m).va, (s.scat m).pa, BitVec.ofNat 32 s.cfg.scatterBufSize⟩ :=
    List.map_congr_left fun m hm => by rw [hcfg, hscat m (Nat.ne_of_lt (List.mem_range.mp hm))]
  unfold recordedRegions State.ring State.bank
  rw [hring, hbank, hnb, hs, ht, List.range_succ, List.map_append, hscats]
  exact perm_last _ _ _

/-- A bank is set up: its record names the held region (R141, R142). -/
theorem Books.addBank {s : State} {b : Nat} {x : Bank} (h : Books [⟨x.rawVa, x.rawPa, x.size⟩] none s)
    (hb : b = s.pool.numBanks) (hmax : b < s.cfg.maxLinkDescBanks) (hx : BankOk s.cfg (poolTotal s) b x) :
    Books [] none (setBank b x { s with pool := { s.pool with numBanks := b + 1 } }) := by
  have hsame := setBank_bank_same (hmax.trans_le (poolLimits h.valid).banks) x s
  have hother {b' : Nat} (hne : b' ≠ b) := setBank_bank_other hne.symm x s
  obtain ⟨-, hns, hbanks, hscats⟩ := h.tables
  rw [← hb] at hbanks
  refine ⟨h.valid, h.live, h.rings, ⟨hmax, hns, ?_, hscats⟩, perm_commit h.regions ?_, h.handles⟩
  · refine table_update (P := BankOk s.cfg (poolTotal s)) (Q := fun _ x => x = {}) hbanks hsame (fun _ => hother)
      ((if_pos (Nat.lt_succ_self b)).mpr hx) fun b' hne => ?_
    show b' < b + 1 ↔ b' < b
    omega
  · have hperm := recordedRegions_bank (s := s) (t := setBank b x { s with pool := { s.pool with numBanks := b + 1 } })
      rfl rfl rfl rfl hb.symm rfl fun _ => hother
    exact hperm.trans (List.Perm.of_eq (congrArg (fun x : Bank => (⟨x.rawVa, x.rawPa, x.size⟩ : Alloc) :: recordedRegions s)
      hsame))

/-- The last bank is given back (R155). -/
theorem Books.dropBank {s : State} {n : Nat} (h : Books [] none s) (hn : s.pool.numBanks = n + 1) :
    Books [] none (setBank n {}
      { s with
        live := s.live.erase ⟨(s.bank n).rawVa, (s.bank n).rawPa, (s.bank n).size⟩
        pool := { s.pool with numBanks := n } }) := by
  obtain ⟨hnb, hns, hbanks, hscats⟩ := h.tables
  rw [hn] at hnb hbanks
  have h256 := Nat.lt_of_lt_of_le hnb (poolLimits h.valid).banks
  have hother {b' : Nat} (hne : b' ≠ n) := setBank_bank_other hne.symm {} s
  refine ⟨h.valid, h.live.erase _, h.rings, ⟨Nat.le_of_succ_le hnb, hns, ?_, hscats⟩, perm_release h.regions ?_, h.handles⟩
  · refine table_update (P := BankOk s.cfg (poolTotal s)) (Q := fun _ x => x = {}) hbanks (setBank_bank_same h256 {} s)
      (fun _ => hother) ((if_neg (Nat.lt_irrefl n)).mpr rfl) fun b' hne => ?_
    show b' < n ↔ b' < n + 1
    omega
  · exact recordedRegions_bank rfl rfl rfl rfl rfl hn fun _ hne => (hother hne).symm

/-- A scatter buffer is set up: its record names the held region (R148). -/
theorem Books.addScat {s : State} {n : Nat} {x : Scatter}
    (h : Books [⟨x.va, x.pa, BitVec.ofNat 32 s.cfg.scatterBufSize⟩] none s)
    (hn : n = s.pool.numScatterBufs) (hmax : n < s.cfg.maxScatterBufs)
    (hx : x.pa.toNat + s.cfg.scatterBufSize ≤ addressSpace) :
    Books [] none (setScat n x { s with pool := { s.pool with numScatterBufs := n + 1 } }) := by
  have hsame := setScat_scat_same (hmax.trans_le (poolLimits h.valid).bufs) x s
  have hother {m : Nat} (hne : m ≠ n) := setScat_scat_other hne.symm x s
  obtain ⟨hnb, -, hbanks, hscats⟩ := h.tables
  rw [← hn] at hscats
  refine ⟨h.valid, h.live, h.rings, ⟨hnb, hmax, hbanks, ?_⟩, perm_commit h.regions ?_, h.handles⟩
  · refine table_update (P := fun _ x => x.pa.toNat + s.cfg.scatterBufSize ≤ addressSpace) (Q := fun _ x => x = {}) hscats
      hsame (fun _ => hother) ((if_pos (Nat.lt_succ_self n)).mpr hx) fun m hne => ?_
    show m < n + 1 ↔ m < n
    omega
  · have hperm := recordedRegions_scat (s := s) (t := setScat n x { s with pool := { s.pool with numScatterBufs := n + 1 } })
      rfl rfl rfl rfl hn.symm rfl fun _ => hother
    exact hperm.trans (List.Perm.of_eq (congrArg
      (fun x : Scatter => (⟨x.va, x.pa, BitVec.ofNat 32 s.cfg.scatterBufSize⟩ : Alloc) :: recordedRegions s) hsame))

/-- The last scatter buffer is given back (R155). -/
theorem Books.dropScat {s : State} {n : Nat} (h : Books [] none s) (hn : s.pool.numScatterBufs = n + 1) :
    Books [] none (setScat n {}
      { s with
        live := s.live.erase ⟨(s.scat n).va, (s.scat n).pa, BitVec.ofNat 32 s.cfg.scatterBufSize⟩
        pool := { s.pool with numScatterBufs := n } }) := by
  obtain ⟨hnb, hns, hbanks, hscats⟩ := h.tables
  rw [hn] at hns hscats
  have h256 := Nat.lt_of_lt_of_le hns (poolLimits h.valid).bufs
  have hother {m : Nat} (hne : m ≠ n) := setScat_scat_other hne.symm {} s
  refine ⟨h.valid, h.live.erase _, h.rings, ⟨hnb, Nat.le_of_succ_le hns, hbanks, ?_⟩, perm_release h.regions ?_, h.handles⟩
  · refine table_update (P := fun _ x => x.pa.toNat + s.cfg.scatterBufSize ≤ addressSpace) (Q := fun _ x => x = {}) hscats
      (setScat_scat_same h256 {} s) (fun _ => hother) ((if_neg (Nat.lt_irrefl n)).mpr rfl) fun m hne => ?_
    show m < n ↔ m < n + 1
    omega
  · exact recordedRegions_scat rfl rfl rfl rfl rfl hn fun _ hne => (hother hne).symm

/-- Without a bank and without a scatter buffer the pool's record is free (R130, R155). -/
theorem Books.setPool {s : State} (h : Books [] none s) {p : Pool} (hnb : s.pool.numBanks = 0)
    (hns : s.pool.numScatterBufs = 0) (hb : p.numBanks = 0) (hn : p.numScatterBufs = 0) :
    Books [] none { s with pool := p } := by
  obtain ⟨-, -, hbanks, hscats⟩ := h.tables
  rw [hnb] at hbanks
  rw [hns] at hscats
  have hregions : recordedRegions { s with pool := p } = recordedRegions s := by
    unfold recordedRegions
    rw [hnb, hns, hb, hn]
    rfl
  refine ⟨h.valid, h.live, h.rings, ⟨hb ▸ Nat.zero_le _, hn ▸ Nat.zero_le _, fun b h256 => ?_, fun n h256 => ?_⟩,
    hregions ▸ h.regions, h.handles⟩
  · rw [hb, if_neg (Nat.not_lt_zero b)]
    exact (if_neg (Nat.not_lt_zero b)).mp (hbanks b h256)
  · rw [hn, if_neg (Nat.not_lt_zero n)]
    exact (if_neg (Nat.not_lt_zero n)).mp (hscats n h256)

end Sys2Proof.Machine

namespace Sys2Proof.Machine

/-! ## Where a consistent machine's sequencer may stand (R30, R130, R155)

`Sound` is `Consistent` without `SeqOk`. Each of its cases below says what a position asks of the pool. -/

/-- The allocation that a position holds and no record names. -/
def Pos.held : Pos → List Alloc
  | .ringRegister _ a | .ringReject a => [a]
  | _ => []

/-- The ring between the two halves of its cleanup. -/
def Pos.gap : Pos → Option (Nat × Nat)
  | .ringFree k i => some (k, i)
  | _ => none

theorem inFlight_eq (s : State) : inFlight s = s.seq.pos.held := by
  unfold inFlight
  cases s.seq.pos <;> rfl

theorem heldHandle_eq (s : State) : heldHandle s = recordedHandle s.seq.pos.gap s := by
  funext p
  have hgap : (s.seq.pos = .ringFree p.1 p.2) ↔ s.seq.pos.gap = some p := by
    cases s.seq.pos <;> simp [Pos.gap, Prod.ext_iff]
  simp only [heldHandle, recordedHandle, hgap]

/-- The part of `PoolOk` that knows where the sequencer stands. -/
def PlaceOk (s : State) : Prop :=
  (s.seq.pos = .start → s.seq.cursor = 0) ∧
    (if underWay s && poolOp s then
      match s.seq.op with
      | .linkPoolSetup => s.pool.valid = false ∧ planTotal s.cfg (scalar s) = some (poolTotal s) ∧ SetupAt s
      | _ => CleanupAt s
    else PoolAtRest s ∧ (underWay s = true → OtherAt s))

structure Sound (s : State) : Prop where
  books : Books s.seq.pos.held s.seq.pos.gap s
  setup : RingSetupOk s
  place : PlaceOk s

theorem consistent_iff (s : State) : Consistent s ↔ SeqOk s ∧ Sound s := by
  constructor
  · rintro ⟨hseq, hlive, ⟨hv, hrings, hsetup⟩, ⟨htables, hplace⟩, hregions, hhandles⟩
    refine ⟨hseq, ⟨hv, hlive, hrings, htables, ?_, ?_⟩, hsetup, hplace⟩
    · exact inFlight_eq s ▸ hregions
    · exact heldHandle_eq s ▸ hhandles
  · rintro ⟨hseq, ⟨hv, hlive, hrings, htables, hregions, hhandles⟩, hsetup, hplace⟩
    refine ⟨hseq, hlive, ⟨hv, hrings, hsetup⟩, ⟨htables, hplace⟩, ?_, ?_⟩
    · rw [ownedRegions, inFlight_eq]
      exact hregions
    · rw [heldHandle_eq]
      exact hhandles

/-! ### The cases of `PlaceOk` -/

/-- `LINK_POOL_SETUP` has its plan and no valid pool (R130). -/
def SetupCmd (s : State) : Prop :=
  s.seq.op = .linkPoolSetup ∧ s.pool.valid = false ∧ planTotal s.cfg (scalar s) = some (poolTotal s)

theorem SetupAt.underWay {s : State} (h : SetupAt s) : underWay s = true := by
  unfold SetupAt at h
  unfold Machine.underWay
  cases hq : s.seq.pos <;> rw [hq] at h
  case idle | start => exact h.elim

theorem CleanupAt.underWay {s : State} (h : CleanupAt s) : underWay s = true := by
  unfold CleanupAt at h
  unfold Machine.underWay
  cases hq : s.seq.pos <;> rw [hq] at h
  case idle | start => exact h.elim

theorem ne_start_of_underWay {s : State} (h : underWay s = true) : s.seq.pos ≠ .start :=
  ((underWay_iff s).mp h).2

theorem placeOk_setup {s : State} (hc : SetupCmd s) (h : SetupAt s) : PlaceOk s := by
  obtain ⟨hop, hv, hplan⟩ := hc
  refine ⟨fun e => absurd e (ne_start_of_underWay h.underWay), ?_⟩
  rw [if_pos (by rw [h.underWay, poolOp, hop]; rfl), hop]
  exact ⟨hv, hplan, h⟩

theorem placeOk_cleanup {s : State} (hop : s.seq.op = .linkPoolCleanup) (h : CleanupAt s) : PlaceOk s := by
  refine ⟨fun e => absurd e (ne_start_of_underWay h.underWay), ?_⟩
  rw [if_pos (by rw [h.underWay, poolOp, hop]; rfl), hop]
  exact h

theorem placeOk_other {s : State} (hop : poolOp s = false) (hu : underWay s = true) (hr : PoolAtRest s) (h : OtherAt s) :
    PlaceOk s := by
  refine ⟨fun e => absurd e (ne_start_of_underWay hu), ?_⟩
  rw [if_neg (by rw [hop, Bool.and_false]; decide)]
  exact ⟨hr, fun _ => h⟩

theorem placeOk_rest {s : State} (hu : underWay s = false) (hc : s.seq.pos = .start → s.seq.cursor = 0)
    (hr : PoolAtRest s) : PlaceOk s := by
  refine ⟨hc, ?_⟩
  rw [if_neg (by rw [hu, Bool.false_and]; decide)]
  exact ⟨hr, fun h => absurd (hu.symm.trans h) Bool.false_ne_true⟩

theorem PlaceOk.setup {s : State} (h : PlaceOk s) (hu : underWay s = true) (hop : s.seq.op = .linkPoolSetup) :
    SetupCmd s ∧ SetupAt s := by
  obtain ⟨-, h⟩ := h
  rw [if_pos (by rw [hu, poolOp, hop]; rfl), hop] at h
  obtain ⟨hv, hplan, hat⟩ := h
  exact ⟨⟨hop, hv, hplan⟩, hat⟩

theorem PlaceOk.cleanup {s : State} (h : PlaceOk s) (hu : underWay s = true) (hop : s.seq.op = .linkPoolCleanup) :
    CleanupAt s := by
  obtain ⟨-, h⟩ := h
  rw [if_pos (by rw [hu, poolOp, hop]; rfl), hop] at h
  exact h

theorem PlaceOk.other {s : State} (h : PlaceOk s) (hu : underWay s = true) (hop : poolOp s = false) :
    PoolAtRest s ∧ OtherAt s := by
  obtain ⟨-, h⟩ := h
  rw [if_neg (by rw [hop, Bool.and_false]; decide)] at h
  exact ⟨h.1, h.2 hu⟩

theorem PlaceOk.rest {s : State} (h : PlaceOk s) (hu : underWay s = false) : PoolAtRest s := by
  obtain ⟨-, h⟩ := h
  rw [if_neg (by rw [hu, Bool.false_and]; decide)] at h
  exact h.1

/-- The operation under way is one of the pool's two, or none of them. -/
theorem poolOp_cases (s : State) : s.seq.op = .linkPoolSetup ∨ s.seq.op = .linkPoolCleanup ∨ poolOp s = false := by
  unfold poolOp
  cases s.seq.op <;> simp

theorem poolOp_of_op {s : State} {o : Op} (h : s.seq.op = o) (hs : o ≠ .linkPoolSetup) (hc : o ≠ .linkPoolCleanup) :
    poolOp s = false := by
  unfold poolOp
  rw [h]
  cases o
  case linkPoolSetup => exact absurd rfl hs
  case linkPoolCleanup => exact absurd rfl hc
  all_goals rfl

/-- The books depend on the memory half only. -/
theorem Books.of_view {held : List Alloc} {gap : Option (Nat × Nat)} {s t : State} (h : Books held gap s)
    (hv : t.memoryView = s.memoryView) : Books held gap t :=
  h.of_ledger (congrArg (fun v : MemoryView => (⟨v.cfg, v.rings, v.banks, v.scats, v.live, v.engReg,
    v.pool.totalLinkDescs, v.pool.numBanks, v.pool.numScatterBufs⟩ : Ledger)) hv)

/-- `Sound` depends on the memory half and the sequencer only. -/
theorem Sound.of_view {s t : State} (h : Sound s) (hv : t.memoryView = s.memoryView) (hq : t.seq = s.seq) : Sound t := by
  obtain ⟨hbooks, hsetup, hplace⟩ := h
  have hbooks : Books t.seq.pos.held t.seq.pos.gap t := by
    rw [hq]
    exact hbooks.of_view hv
  suffices hrest : RingSetupOk t ∧ PlaceOk t from ⟨hbooks, hrest.1, hrest.2⟩
  clear hbooks
  cases s
  cases t
  simp only [State.memoryView, MemoryView.mk.injEq] at hv
  obtain ⟨rfl, -, rfl, rfl, rfl, rfl, rfl, -, -⟩ := hv
  cases hq
  exact ⟨hsetup, hplace⟩

end Sys2Proof.Machine

namespace Sys2Proof.Machine

/-! ## The invariant under `PoolUnwind`, `RingSetup` and `RingCleanup` (R110 to R120, R155) -/

theorem sound_rest {s : State} (hq : s.seq = {}) (hb : Books [] none s) (hr : PoolAtRest s) : Sound s := by
  have hu : underWay s = false := by unfold underWay; rw [hq]
  refine ⟨?_, ?_, placeOk_rest hu (fun e => ?_) hr⟩
  · rw [hq]
    exact hb
  · unfold RingSetupOk
    rw [hq]
    trivial
  · rw [hq]

/-- What the pool at rest depends on. -/
theorem PoolAtRest.of_eq {s t : State} (h : PoolAtRest s) (hcfg : t.cfg = s.cfg) (hpool : t.pool = s.pool)
    (hprod : t.producer = s.producer) (hring : t.ring idleClass 0 = s.ring idleClass 0) : PoolAtRest t := by
  simp only [PoolAtRest, ValidPool, IdleRing, NoIdleRing, poolTotal, hcfg, hpool, hprod, hring] at h ⊢
  exact h

/-- A ring place without a ring is empty (R34). -/
theorem Books.ring_empty {held : List Alloc} {gap : Option (Nat × Nat)} {s : State} (h : Books held gap s) {k i : Nat}
    (hk : k < 16) (hi : i < 8) (hno : (s.ring k i).registered = false) : s.ring k i = {} := by
  have hok := h.rings k hk i hi
  unfold RingOk at hok
  rwa [if_neg (by rw [hno]; decide)] at hok

/-! ### `PoolUnwind` -/

/-- A command of the pool is under way. -/
def PoolCmd (s : State) : Prop := SetupCmd s ∨ s.seq.op = .linkPoolCleanup

/-- The positions of the unwinding are the same in both commands. -/
theorem CleanupAt.setupAt {s : State} (h : CleanupAt s) : SetupAt s := by
  unfold CleanupAt at h
  unfold SetupAt
  cases hq : s.seq.pos <;> rw [hq] at h
  case ringUnregister | ringFree | unwindScatter | unwindBank => exact h
  all_goals exact h.elim

theorem sound_unwind {s : State} (hb : Books s.seq.pos.held s.seq.pos.gap s) (hc : PoolCmd s) (h : CleanupAt s) :
    Sound s := by
  refine ⟨hb, ?_, hc.elim (fun hc => placeOk_setup hc h.setupAt) fun hop => placeOk_cleanup hop h⟩
  unfold CleanupAt at h
  unfold RingSetupOk
  cases hq : s.seq.pos <;> rw [hq] at h
  case ringAlloc | ringRegister => exact h.elim
  all_goals trivial

/-- `PoolUnwind` can begin. -/
structure Unwinding (s : State) : Prop where
  books : Books [] none s
  command : PoolCmd s
  producer : (s.ring idleClass 0).registered = false → s.producer = {}

theorem Unwinding.noIdleRing {s : State} (h : Unwinding s) (hno : (s.ring idleClass 0).registered = false) :
    NoIdleRing s := ⟨h.books.ring_empty (by decide) (by decide) hno, h.producer hno⟩

theorem unwindMemory_sound {s : State} (h : Unwinding s) (hno : (s.ring idleClass 0).registered = false) :
    Sound (unwindMemory s) := by
  have hidle := h.noIdleRing hno
  unfold unwindMemory
  split_ifs with hn hb
  · exact sound_unwind (h.books.of_ledger rfl) h.command ⟨hidle, hn⟩
  · exact sound_unwind (h.books.of_ledger rfl) h.command ⟨hidle, Nat.eq_zero_of_not_pos hn, hb⟩
  · have hbooks := h.books.setPool (p := {}) (Nat.eq_zero_of_not_pos hb) (Nat.eq_zero_of_not_pos hn) rfl rfl
    refine sound_rest rfl (hbooks.of_ledger rfl) ?_
    unfold PoolAtRest
    exact (if_neg Bool.false_ne_true).mpr ⟨rfl, hidle⟩

theorem startUnwind_sound {s : State} (h : Unwinding s) (e : Err) : Sound (startUnwind e s) := by
  unfold startUnwind
  dsimp only
  split
  · next hr => exact sound_unwind (h.books.of_ledger rfl) h.command ⟨rfl, rfl, hr⟩
  · next hr => exact unwindMemory_sound ⟨h.books.of_ledger rfl, h.command, h.producer⟩ (Bool.eq_false_of_not_eq_true hr)

/-! ### `RingSetup` -/

/-- A failure of `RingSetup` finds its way: into `PoolUnwind`, or to the host (R143, R155). -/
def Failing (s : State) : Prop := SetupCmd s ∧ NoIdleRing s ∨ s.seq.op = .ringSetup ∧ PoolAtRest s

theorem ringFail_sound {s : State} (hb : Books [] none s) (h : Failing s) (e : Err) : Sound (ringFail e s) := by
  unfold ringFail
  obtain ⟨hc, hno⟩ | ⟨hop, hrest⟩ := h
  · rw [hc.1]
    exact startUnwind_sound ⟨hb, .inl hc, fun _ => hno.2⟩ e
  · rw [hop]
    exact sound_rest rfl (hb.of_ledger rfl) hrest

/-- `RingSetup` runs for `RING_SETUP` of another class or for the idle list of `LINK_POOL_SETUP` (R110, R143). -/
def RingJob (r : RingReq) (s : State) : Prop :=
  SetupCmd s ∧ r = ⟨idleClass, 0, 0, poolTotal s⟩ ∧ FillingRing s ∧ NoIdleRing s ∧ s.seq.cursor = 0 ∨
    s.seq.op = .ringSetup ∧ r.cls ≠ idleClass ∧ PoolAtRest s

theorem RingJob.failing {r : RingReq} {s : State} (h : RingJob r s) : Failing s := by
  obtain ⟨hc, -, -, hno, -⟩ | ⟨hop, -, hrest⟩ := h
  · exact .inl ⟨hc, hno⟩
  · exact .inr ⟨hop, hrest⟩

theorem placeOk_ringJob_iff {r : RingReq} {s : State}
    (hp : s.seq.pos = .ringAlloc r ∨ ∃ a, s.seq.pos = .ringRegister r a) : PlaceOk s ↔ RingJob r s := by
  have hu : underWay s = true := by
    unfold underWay
    obtain hp | ⟨a, hp⟩ := hp <;> rw [hp]
  have hsetup : SetupAt s ↔ r = ⟨idleClass, 0, 0, poolTotal s⟩ ∧ FillingRing s ∧ NoIdleRing s ∧ s.seq.cursor = 0 := by
    unfold SetupAt
    obtain hp | ⟨a, hp⟩ := hp <;> rw [hp]
  have hcleanup : ¬CleanupAt s := by
    unfold CleanupAt
    obtain hp | ⟨a, hp⟩ := hp <;> rw [hp] <;> exact id
  have hother : OtherAt s ↔ s.seq.op = .ringSetup ∧ r.cls ≠ idleClass := by
    unfold OtherAt
    obtain hp | ⟨a, hp⟩ := hp <;> rw [hp] <;> cases s.seq.op <;> simp
  constructor
  · intro h
    obtain hop | hop | hop := poolOp_cases s
    · obtain ⟨hc, hat⟩ := h.setup hu hop
      exact .inl ⟨hc, hsetup.mp hat⟩
    · exact absurd (h.cleanup hu hop) hcleanup
    · obtain ⟨hrest, hat⟩ := h.other hu hop
      obtain ⟨ho, hr⟩ := hother.mp hat
      exact .inr ⟨ho, hr, hrest⟩
  · rintro (⟨hc, h⟩ | ⟨hop, hr, hrest⟩)
    · exact placeOk_setup hc (hsetup.mpr h)
    · exact placeOk_other (poolOp_of_op hop nofun nofun) hu hrest (hother.mpr ⟨hop, hr⟩)

theorem placeOk_ringReject_iff {a : Alloc} {s : State} (hp : s.seq.pos = .ringReject a) :
    PlaceOk s ↔ SetupCmd s ∧ FillingRing s ∧ NoIdleRing s ∨ s.seq.op = .ringSetup ∧ PoolAtRest s := by
  have hu : underWay s = true := by unfold underWay; rw [hp]
  have hsetup : SetupAt s ↔ FillingRing s ∧ NoIdleRing s := by unfold SetupAt; rw [hp]
  have hcleanup : ¬CleanupAt s := by unfold CleanupAt; rw [hp]; exact id
  have hother : OtherAt s ↔ s.seq.op = .ringSetup := by unfold OtherAt; rw [hp]; cases s.seq.op <;> simp
  constructor
  · intro h
    obtain hop | hop | hop := poolOp_cases s
    · obtain ⟨hc, hat⟩ := h.setup hu hop
      exact .inl ⟨hc, hsetup.mp hat⟩
    · exact absurd (h.cleanup hu hop) hcleanup
    · obtain ⟨hrest, hat⟩ := h.other hu hop
      exact .inr ⟨hother.mp hat, hrest⟩
  · rintro (⟨hc, h⟩ | ⟨hop, hrest⟩)
    · exact placeOk_setup hc (hsetup.mpr h)
    · exact placeOk_other (poolOp_of_op hop nofun nofun) hu hrest (hother.mpr hop)

theorem ringEnter_sound {r : RingReq} {s : State} (hb : Books [] none s) (hj : RingJob r s) : Sound (ringEnter r s) := by
  unfold ringEnter
  split
  · next hok => exact ⟨hb.of_ledger rfl, hok, (placeOk_ringJob_iff (.inl rfl)).mpr hj⟩
  · exact ringFail_sound hb hj.failing .configErr

/-- What the checks of R111 give. -/
theorem ringRequestOk_iff (s : State) (r : RingReq) : ringRequestOk s r = true ↔
    slotExists s.cfg r.cls r.inst = true ∧ (s.ring r.cls r.inst).registered = false ∧ r.entries ≠ 0 ∧
      ringSize s.cfg r.cls r.entries ≤ wordMax := by
  simp only [ringRequestOk, Bool.and_eq_true, Bool.not_eq_true', decide_eq_true_eq, and_assoc]

theorem allocAdmissible_fits {s : State} {size : Nat} {va : VAddr} {pa : PAddr}
    (h : allocAdmissible s size (va, pa) = true) : pa.toNat + size ≤ addressSpace := by
  unfold allocAdmissible at h
  rw [Bool.and_eq_true, decide_eq_true_eq] at h
  exact h.1

theorem ringAllocStep_sound {r : RingReq} {s : State} (hp : s.seq.pos = .ringAlloc r) (h : Sound s) :
    Sound (ringAllocStep r s) := by
  obtain ⟨hb, hok, hplace⟩ := h
  have hj := (placeOk_ringJob_iff (.inl hp)).mp hplace
  rw [hp] at hb
  unfold RingSetupOk at hok
  rw [hp] at hok
  obtain ⟨-, -, -, hword⟩ := (ringRequestOk_iff s r).mp hok
  unfold ringAllocStep
  obtain ⟨e, heq⟩ | ⟨e, va, pa, ha, heq⟩ := hostAllocCoherent_cases (ringSize s.cfg r.cls r.entries) s <;> rw [heq]
  · refine ringFail_sound ?_ ?_ .allocFail
    · exact hb.of_ledger rfl
    · exact hj.failing
  · have hsize := size_toNat hword
    refine ⟨(hb.alloc hword ha).of_ledger rfl, ⟨hok, hsize, ?_⟩, (placeOk_ringJob_iff (.inr ⟨_, rfl⟩)).mpr hj⟩
    show pa.toNat + (BitVec.ofNat 32 (ringSize s.cfg r.cls r.entries)).toNat ≤ addressSpace
    rw [hsize]
    exact allocAdmissible_fits ha

theorem setRing_idleRing {k i : Nat} (hk : k ≠ idleClass) (x : RingRec) (s : State) :
    (setRing k i x s).ring idleClass 0 = s.ring idleClass 0 :=
  setRing_ring_other (by decide) (by decide) (fun e => hk e.1) x s

theorem clearProducer_other {k : Nat} (hk : k ≠ idleClass) (s : State) : clearProducer k s = s := if_neg hk

theorem clearProducer_idle (s : State) : clearProducer idleClass s = { s with producer := {} } := if_pos rfl

/-- The end of a `RingSetup` that succeeded, for either command (R110, R130). -/
theorem ringReturn_sound {r : RingReq} {s : State} {x : RingRec}
    (hb : Books [] none (setRing r.cls r.inst x s)) (hj : RingJob r s)
    (hx : x.registered = true ∧ x.numEntries = BitVec.ofNat 32 r.entries) :
    Sound (ringReturn r (clearProducer r.cls (setRing r.cls r.inst x s))) := by
  unfold ringReturn
  obtain ⟨hc, rfl, hfill, -, hcursor⟩ | ⟨hop, hne, hrest⟩ := hj
  · rw [clearProducer_idle]
    have hop : (setRing idleClass 0 x s).seq.op = .linkPoolSetup := hc.1
    dsimp only at hb ⊢
    rw [hop]
    have hring : (setRing idleClass 0 x s).ring idleClass 0 = x := setRing_ring_same (by decide) (by decide) x s
    have hidle : IdleRing (setRing idleClass 0 x s) := by
      unfold IdleRing
      rw [hring]
      refine ⟨hx.1, hx.2.trans ?_⟩
      exact BitVec.eq_of_toNat_eq (by simp)
    exact ⟨hb.of_ledger rfl, trivial, placeOk_setup hc ⟨hfill, hidle, rfl, hcursor⟩⟩
  · rw [clearProducer_other hne]
    have hop : (setRing r.cls r.inst x s).seq.op = .ringSetup := hop
    rw [hop]
    exact sound_rest rfl (hb.of_ledger rfl) (hrest.of_eq rfl rfl rfl (setRing_idleRing hne x s))

theorem ringRegisterStep_sound {r : RingReq} {a : Alloc} {s : State} (hp : s.seq.pos = .ringRegister r a)
    (h : Sound s) : Sound (ringRegisterStep r a s) := by
  obtain ⟨hb, hok, hplace⟩ := h
  have hj := (placeOk_ringJob_iff (.inr ⟨a, hp⟩)).mp hplace
  rw [hp] at hb
  unfold RingSetupOk at hok
  rw [hp] at hok
  obtain ⟨hok, hsize, hfit⟩ := hok
  obtain ⟨hs, hno, hn, hword⟩ := (ringRequestOk_iff s r).mp hok
  unfold ringRegisterStep
  obtain ⟨e, heq⟩ | ⟨e, hnd, hadm, heq⟩ := engRingRegister_cases r (ringParams (ringRecord s.cfg r a 0)) s <;> rw [heq]
  · refine ⟨hb.of_ledger rfl, trivial, (placeOk_ringReject_iff rfl).mpr ?_⟩
    obtain ⟨hc, -, hfill, hidle, -⟩ | ⟨hop, -, hrest⟩ := hj
    · exact .inl ⟨hc, hfill, hidle⟩
    · exact .inr ⟨hop, hrest⟩
  · obtain ⟨hk, hi⟩ := slotExists_bounds hb.valid hs
    have hne : hnd ≠ 0 := by
      unfold engHandleAdmissible at hadm
      rw [Bool.and_eq_true, decide_eq_true_eq] at hadm
      exact hadm.1
    have hbooks := hb.register (x := ringRecord s.cfg r a hnd) hk hi hno rfl
      (ringRecord_ok hb.valid hs hn hword hsize hfit hne)
    exact ringReturn_sound (hbooks.of_ledger rfl) hj ⟨rfl, rfl⟩

theorem ringRejectStep_sound {a : Alloc} {s t : State} (hp : s.seq.pos = .ringReject a) (h : Sound s)
    (hstep : ringRejectStep a s = .next t) : Sound t := by
  obtain ⟨hb, -, hplace⟩ := h
  have hj := (placeOk_ringReject_iff hp).mp hplace
  rw [hp] at hb
  obtain ⟨u, hu, ht⟩ := andThen_next hstep
  obtain ⟨-, rfl⟩ := hostFreeCoherent_next hu
  cases ht
  refine ringFail_sound ?_ ?_ .regFail
  · exact hb.free.of_ledger rfl
  · obtain ⟨hc, -, hno⟩ | h := hj
    · exact .inl ⟨hc, hno⟩
    · exact .inr h

/-! ### `RingCleanup` -/

/-- `RingCleanup` runs for `RING_CLEANUP` of another class or as part of `PoolUnwind` (R118, R155). -/
def CleanJob (k i : Nat) (s : State) : Prop :=
  PoolCmd s ∧ k = idleClass ∧ i = 0 ∨ s.seq.op = .ringCleanup ∧ k ≠ idleClass ∧ PoolAtRest s

theorem placeOk_cleanJob_iff {k i : Nat} {s : State} (hp : s.seq.pos = .ringUnregister k i ∨ s.seq.pos = .ringFree k i) :
    PlaceOk s ↔ CleanJob k i s ∧ (s.ring k i).registered = true := by
  have hu : underWay s = true := by
    unfold underWay
    obtain hp | hp := hp <;> rw [hp]
  have hcleanup : CleanupAt s ↔ k = idleClass ∧ i = 0 ∧ (s.ring idleClass 0).registered = true := by
    unfold CleanupAt
    obtain hp | hp := hp <;> rw [hp]
  have hsetup : SetupAt s ↔ k = idleClass ∧ i = 0 ∧ (s.ring idleClass 0).registered = true := by
    unfold SetupAt
    obtain hp | hp := hp <;> rw [hp]
  have hother : OtherAt s ↔ s.seq.op = .ringCleanup ∧ k ≠ idleClass ∧ (s.ring k i).registered = true := by
    unfold OtherAt
    obtain hp | hp := hp <;> rw [hp] <;> cases s.seq.op <;> simp
  constructor
  · intro h
    obtain hop | hop | hop := poolOp_cases s
    · obtain ⟨hc, hat⟩ := h.setup hu hop
      obtain ⟨rfl, rfl, hr⟩ := hsetup.mp hat
      exact ⟨.inl ⟨.inl hc, rfl, rfl⟩, hr⟩
    · obtain ⟨rfl, rfl, hr⟩ := hcleanup.mp (h.cleanup hu hop)
      exact ⟨.inl ⟨.inr hop, rfl, rfl⟩, hr⟩
    · obtain ⟨hrest, hat⟩ := h.other hu hop
      obtain ⟨ho, hk, hr⟩ := hother.mp hat
      exact ⟨.inr ⟨ho, hk, hrest⟩, hr⟩
  · rintro ⟨⟨hc | hop, rfl, rfl⟩ | ⟨hop, hk, hrest⟩, hr⟩
    · exact placeOk_setup hc (hsetup.mpr ⟨rfl, rfl, hr⟩)
    · exact placeOk_cleanup hop (hcleanup.mpr ⟨rfl, rfl, hr⟩)
    · exact placeOk_other (poolOp_of_op hop nofun nofun) hu hrest (hother.mpr ⟨hop, hk, hr⟩)

theorem ringUnregisterStep_sound {k i : Nat} {s t : State} (hp : s.seq.pos = .ringUnregister k i) (h : Sound s)
    (hstep : ringUnregisterStep k i s = .next t) : Sound t := by
  obtain ⟨hb, -, hplace⟩ := h
  obtain ⟨hj, hr⟩ := (placeOk_cleanJob_iff (.inl hp)).mp hplace
  rw [hp] at hb
  obtain ⟨u, hu, ht⟩ := andThen_next hstep
  obtain ⟨-, rfl⟩ := engRingUnregister_next hu
  cases ht
  exact ⟨(hb.unregister hr).of_ledger rfl, trivial, (placeOk_cleanJob_iff (.inr rfl)).mpr ⟨hj, hr⟩⟩

theorem ringFreeStep_sound {k i : Nat} {s t : State} (hp : s.seq.pos = .ringFree k i) (h : Sound s)
    (hstep : ringFreeStep k i s = .next t) : Sound t := by
  obtain ⟨hb, -, hplace⟩ := h
  obtain ⟨hj, hr⟩ := (placeOk_cleanJob_iff (.inr hp)).mp hplace
  rw [hp] at hb
  have hbooks := hb.freeRing hr
  obtain ⟨u, hu, ht⟩ := andThen_next hstep
  obtain ⟨-, rfl⟩ := hostFreeCoherent_next hu
  cases ht
  unfold ringCleanupReturn
  obtain ⟨hc, rfl, rfl⟩ | ⟨hop, hk, hrest⟩ := hj
  · rw [clearProducer_idle]
    have hgone : ((setRing idleClass 0 {} s).ring idleClass 0).registered = false := by
      rw [setRing_ring_same (by decide) (by decide)]
    have hunwind := unwindMemory_sound (s := { setRing idleClass 0 {} s with
      producer := {}
      live := s.live.erase ⟨(s.ring idleClass 0).rawVa, (s.ring idleClass 0).rawPa, (s.ring idleClass 0).rawSize⟩
      hist := s.hist ++ [⟨.seq, .freeCoherent
        ⟨(s.ring idleClass 0).rawVa, (s.ring idleClass 0).rawPa, (s.ring idleClass 0).rawSize⟩⟩] })
      ⟨hbooks.of_ledger rfl, hc, fun _ => rfl⟩ hgone
    dsimp only
    split
    · next hop =>
      have hop : s.seq.op = .ringCleanup := hop
      obtain ⟨ho, -⟩ | ho := hc <;> rw [hop] at ho <;> cases ho
    · exact hunwind
  · rw [clearProducer_other hk]
    dsimp only [setRing, record]
    rw [hop]
    exact sound_rest rfl (hbooks.of_ledger rfl) (hrest.of_eq rfl rfl rfl (setRing_idleRing hk {} s))

/-! ### The frees of the unwinding -/

/-- The positions of the frees of scatter buffers and banks belong to the pool's commands. -/
theorem PlaceOk.unwinding {s : State} (h : PlaceOk s) (hp : s.seq.pos = .unwindScatter ∨ s.seq.pos = .unwindBank) :
    PoolCmd s ∧ CleanupAt s := by
  have hu : underWay s = true := by
    unfold underWay
    obtain hp | hp := hp <;> rw [hp]
  obtain hop | hop | hop := poolOp_cases s
  · obtain ⟨hc, hat⟩ := h.setup hu hop
    refine ⟨.inl hc, ?_⟩
    unfold SetupAt at hat
    unfold CleanupAt
    obtain hp | hp := hp <;> rw [hp] at hat ⊢ <;> exact hat
  · exact ⟨.inr hop, h.cleanup hu hop⟩
  · obtain ⟨-, hat⟩ := h.other hu hop
    unfold OtherAt at hat
    obtain hp | hp := hp <;> rw [hp] at hat <;> cases ho : s.seq.op <;> rw [ho] at hat <;> exact hat.elim

theorem unwindScatterStep_sound {s t : State} (hp : s.seq.pos = .unwindScatter) (h : Sound s)
    (hstep : unwindScatterStep s = .next t) : Sound t := by
  obtain ⟨hb, -, hplace⟩ := h
  obtain ⟨hc, hat⟩ := hplace.unwinding (.inl hp)
  rw [hp] at hb
  unfold CleanupAt at hat
  rw [hp] at hat
  obtain ⟨⟨hring, hprod⟩, hn⟩ := hat
  have hbooks := hb.dropScat (Nat.succ_pred_eq_of_pos hn).symm
  obtain ⟨u, hu, ht⟩ := andThen_next hstep
  obtain ⟨-, rfl⟩ := hostFreeCoherent_next hu
  cases ht
  exact unwindMemory_sound ⟨hbooks.of_ledger rfl, hc, fun _ => hprod⟩ (congrArg RingRec.registered hring)

theorem unwindBankStep_sound {s t : State} (hp : s.seq.pos = .unwindBank) (h : Sound s)
    (hstep : unwindBankStep s = .next t) : Sound t := by
  obtain ⟨hb, -, hplace⟩ := h
  obtain ⟨hc, hat⟩ := hplace.unwinding (.inr hp)
  rw [hp] at hb
  unfold CleanupAt at hat
  rw [hp] at hat
  obtain ⟨⟨hring, hprod⟩, -, hn⟩ := hat
  have hbooks := hb.dropBank (Nat.succ_pred_eq_of_pos hn).symm
  obtain ⟨u, hu, ht⟩ := andThen_next hstep
  obtain ⟨-, rfl⟩ := hostFreeCoherent_next hu
  cases ht
  exact unwindMemory_sound ⟨hbooks.of_ledger rfl, hc, fun _ => hprod⟩ (congrArg RingRec.registered hring)

end Sys2Proof.Machine

namespace Sys2Proof.Machine

/-! ## The invariant under `LINK_POOL_SETUP` (R130, R141 to R153) -/

/-- The positions that only `LINK_POOL_SETUP` has. -/
def Pos.ofSetup : Pos → Bool
  | .bankAlloc _ | .accessStart | .getNext _ _ | .setLink _ _ _ | .accessEnd | .publishRing | .scatterAlloc _
  | .scatterLink _ _ | .publishScatter => true
  | _ => false

theorem Pos.setup_holds_nothing {p : Pos} (hp : p.ofSetup = true) : p.held = [] ∧ p.gap = none := by
  cases p <;> cases hp <;> exact ⟨rfl, rfl⟩

theorem PlaceOk.ofSetup {s : State} (h : PlaceOk s) (hp : s.seq.pos.ofSetup = true) : SetupCmd s ∧ SetupAt s := by
  have hu : underWay s = true := by
    unfold underWay
    cases hq : s.seq.pos <;> rw [hq] at hp <;> cases hp
  obtain hop | hop | hop := poolOp_cases s
  · exact h.setup hu hop
  · have hat := h.cleanup hu hop
    unfold CleanupAt at hat
    cases hq : s.seq.pos <;> rw [hq] at hp hat <;> cases hp <;> exact hat.elim
  · obtain ⟨-, hat⟩ := h.other hu hop
    unfold OtherAt at hat
    split at hat
    case h_15 => exact hat.elim
    all_goals next hq => rw [hq] at hp; cases hp

/-- At such a position nothing is in flight. -/
theorem Sound.ofSetup {s : State} (h : Sound s) (hp : s.seq.pos.ofSetup = true) :
    Books [] none s ∧ SetupCmd s ∧ SetupAt s := by
  obtain ⟨hb, -, hplace⟩ := h
  obtain ⟨hheld, hgap⟩ := Pos.setup_holds_nothing hp
  rw [hheld, hgap] at hb
  exact ⟨hb, hplace.ofSetup hp⟩

theorem sound_setup {s : State} (hp : s.seq.pos.ofSetup = true) (hb : Books [] none s) (hc : SetupCmd s) (h : SetupAt s) :
    Sound s := by
  refine ⟨?_, ?_, placeOk_setup hc h⟩
  · obtain ⟨hheld, hgap⟩ := Pos.setup_holds_nothing hp
    rw [hheld, hgap]
    exact hb
  · unfold RingSetupOk
    cases hq : s.seq.pos <;> rw [hq] at hp <;> cases hp <;> trivial

/-- The limits of the plan under way. -/
theorem SetupCmd.plan {s : State} (h : SetupCmd s) :
    1 ≤ poolTotal s ∧ isPow2 (poolTotal s) = true ∧ banksNeeded s.cfg (poolTotal s) ≤ s.cfg.maxLinkDescBanks ∧
      scatterPlanOk s.cfg (poolTotal s) = true := by
  obtain ⟨-, -, hplan⟩ := h
  obtain ⟨hpos, -, hpow, hbanks, hscat⟩ := planTotal_some hplan
  exact ⟨hpos, hpow, hbanks, hscat⟩

/-! ### The banks -/

theorem afterBanks_sound {s : State} (hb : Books [] none s) (hc : SetupCmd s)
    (hnb : s.pool.numBanks = banksNeeded s.cfg (poolTotal s)) (hns : s.pool.numScatterBufs = 0) (hno : NoIdleRing s)
    (hcursor : s.seq.cursor = 0) : Sound (afterBanks s) := by
  obtain ⟨hpos, -⟩ := hc.plan
  unfold afterBanks
  split
  · next hpath => exact ringEnter_sound hb (.inl ⟨hc, rfl, ⟨hnb, hpath, hns⟩, hno, hcursor⟩)
  · next hpath =>
    refine sound_setup rfl (hb.of_ledger rfl) hc ⟨⟨hnb, hpath, hno⟩, hns.symm, ?_, hcursor⟩
    exact scatterBufsNeeded_pos (poolLimits hb.valid) hpos

theorem bankAllocStep_sound {b : Nat} {s : State} (hp : s.seq.pos = .bankAlloc b) (h : Sound s) :
    Sound (bankAllocStep b s) := by
  obtain ⟨hb, hc, hat⟩ := h.ofSetup (by rw [hp]; rfl)
  obtain ⟨hpos, -, hmax, -⟩ := hc.plan
  have hl := poolLimits hb.valid
  unfold SetupAt at hat
  rw [hp] at hat
  obtain ⟨hnb, hlt, hns, hno, hcursor⟩ := hat
  unfold bankAllocStep
  obtain ⟨e, heq⟩ | ⟨e, va, pa, ha, heq⟩ := hostAllocCoherent_cases (bankSize s.cfg (poolTotal s) b) s <;> rw [heq]
  · refine startUnwind_sound ?_ .allocFail
    exact ⟨hb.of_ledger rfl, .inl hc, fun _ => hno.2⟩
  · have hbooks := (hb.alloc ((bank_fits hl _ b).2.trans hl.word) ha).addBank
      (x := bankRecord s.cfg ⟨va, pa, BitVec.ofNat 32 (bankSize s.cfg (poolTotal s) b)⟩ (bankCount s.cfg (poolTotal s) b))
      hnb (hlt.trans_le hmax) (bankRecord_ok hl hpos hlt (allocAdmissible_fits ha))
    dsimp only
    split
    · next hnext =>
      refine sound_setup rfl ?_ hc ⟨rfl, hnext, hns, hno, hcursor⟩
      exact hbooks.of_ledger rfl
    · next hlast =>
      refine afterBanks_sound ?_ hc ?_ hns hno hcursor
      · exact hbooks.of_ledger rfl
      · show b + 1 = banksNeeded s.cfg (poolTotal s)
        omega

/-! ### The walk over the descriptors (R144) -/

/-- Every bank of the plan is allocated. -/
structure Filling (s : State) : Prop where
  books : Books [] none s
  command : SetupCmd s
  banks : s.pool.numBanks = banksNeeded s.cfg (poolTotal s)

theorem Filling.count {s : State} (h : Filling s) {b : Nat} (hb : b < s.pool.numBanks) :
    (s.bank b).count.toNat = bankCount s.cfg (poolTotal s) b := by
  obtain ⟨hmax, -, hbanks, -⟩ := h.books.tables
  have hok := hbanks b ((hb.trans_le hmax).trans_le (poolLimits h.books.valid).banks)
  rw [if_pos hb] at hok
  exact hok.1

theorem Filling.count_pos {s : State} (h : Filling s) {b : Nat} (hb : b < s.pool.numBanks) :
    0 < (s.bank b).count.toNat := by
  rw [h.count hb]
  exact bankCount_pos (poolLimits h.books.valid) h.command.plan.1 (h.banks ▸ hb)

theorem entriesBefore_succ (s : State) (b : Nat) :
    entriesBefore s (b + 1) = entriesBefore s b + (s.bank b).count.toNat := by
  simp [entriesBefore, List.range_succ]

theorem entriesBefore_mono (s : State) : Monotone (entriesBefore s) :=
  monotone_nat_of_le_succ fun b => entriesBefore_succ s b ▸ Nat.le_add_right _ _

/-- The walk ends with the last descriptor of the plan. -/
theorem Filling.entries {s : State} (h : Filling s) : entriesBefore s s.pool.numBanks = poolTotal s := by
  have hcounts : (List.range s.pool.numBanks).map (fun b => (s.bank b).count.toNat) =
      (List.range s.pool.numBanks).map (bankCount s.cfg (poolTotal s)) :=
    List.map_congr_left fun b hb => h.count (List.mem_range.mp hb)
  rw [entriesBefore, hcounts, h.banks, bankCount_sum]

theorem Filling.walk_start {s : State} (h : Filling s) (hcursor : s.seq.cursor = 0) : WalkAt s 0 0 := by
  have hpos : 0 < s.pool.numBanks := h.banks ▸ banksNeeded_pos h.command.plan.1
  exact ⟨hpos, h.count_pos hpos, hcursor⟩

/-- The entry that the walk stands at is one of the plan's. -/
theorem Filling.walk_lt {s : State} (h : Filling s) {b j : Nat} (hw : WalkAt s b j) : s.seq.cursor < poolTotal s := by
  obtain ⟨hb, hj, hcursor⟩ := hw
  have hsucc := entriesBefore_succ s b
  have hle := entriesBefore_mono s (Nat.succ_le_of_lt hb)
  rw [h.entries] at hle
  change entriesBefore s (b + 1) ≤ poolTotal s at hle
  omega

/-- The walk goes on at the next descriptor, or it has reached the last one. -/
theorem Filling.walk_next {s : State} (h : Filling s) {b j : Nat} (hw : WalkAt s b j) :
    (∃ b' j', nextDesc s b j = some (b', j') ∧ WalkAt (countEntry s) b' j') ∨
      nextDesc s b j = none ∧ s.seq.cursor + 1 = poolTotal s := by
  obtain ⟨hb, hj, hcursor⟩ := hw
  have hsucc := entriesBefore_succ s b
  unfold nextDesc
  split_ifs with hjn hbn
  · exact .inl ⟨b, j + 1, rfl, hb, hjn, congrArg (· + 1) hcursor⟩
  · refine .inl ⟨b + 1, 0, rfl, hbn, h.count_pos hbn, ?_⟩
    show s.seq.cursor + 1 = entriesBefore s (b + 1) + 0
    omega
  · have hend : entriesBefore s (b + 1) = poolTotal s := by rw [← h.entries, show b + 1 = s.pool.numBanks by omega]
    exact .inr ⟨rfl, by omega⟩

/-! ### The idle list in its ring (R145 to R147) -/

theorem accessStartStep_sound {s t : State} (hp : s.seq.pos = .accessStart) (h : Sound s)
    (hstep : accessStartStep s = .next t) : Sound t := by
  obtain ⟨hb, hc, hat⟩ := h.ofSetup (by rw [hp]; rfl)
  unfold SetupAt at hat
  rw [hp] at hat
  obtain ⟨hfill, hidle, hprod, hcursor⟩ := hat
  have hwalk := (Filling.mk hb hc hfill.1).walk_start hcursor
  obtain ⟨u, hu, ht⟩ := andThen_next hstep
  obtain ⟨-, rfl⟩ := engSrcAccessStart_next hu
  cases ht
  refine sound_setup rfl ?_ hc ⟨hfill, hidle, hwalk, ?_⟩
  · exact hb.of_ledger rfl
  · show { s.producer with bracketOpen := true, wrShadow := s.producer.wrHw } = (⟨s.seq.cursor, 0, 0, true⟩ : Producer)
    rw [hprod, hcursor]

/-- The idle-list ring has a slot for every entry, inside the address space (R34, R143). -/
theorem IdleRing.slot_fits {s : State} (hb : Books [] none s) (h : IdleRing s) {n : Nat} (hn : n < poolTotal s) :
    (s.ring idleClass 0).basePa.toNat + idleEntrySize * n < 2 ^ 40 := by
  obtain ⟨hr, hcount⟩ := h
  have hok := hb.rings idleClass (by decide) 0 (by decide)
  unfold RingOk at hok
  rw [if_pos hr] at hok
  obtain ⟨-, hsize, -, -, -, hend, -, hfit, -⟩ := hok
  rw [hcount, hsize, idle_entrySize hb.valid] at hend
  change _ + poolTotal s * 8 ≤ _ at hend
  unfold addressSpace at hfit
  unfold idleEntrySize
  omega

theorem getNextStep_sound {b j : Nat} {s t : State} (hp : s.seq.pos = .getNext b j) (h : Sound s)
    (hstep : getNextStep b j s = .next t) : Sound t := by
  obtain ⟨hb, hc, hat⟩ := h.ofSetup (by rw [hp]; rfl)
  unfold SetupAt at hat
  rw [hp] at hat
  obtain ⟨hfill, hidle, hwalk, hprod⟩ := hat
  have hlt := (Filling.mk hb hc hfill.1).walk_lt hwalk
  have hcount : (s.ring idleClass 0).numEntries.toNat = poolTotal s := congrArg BitVec.toNat hidle.2
  have hshadow : s.producer.wrShadow = s.seq.cursor := congrArg Producer.wrShadow hprod
  obtain ⟨u, hu, ht⟩ := andThen_next hstep
  obtain ⟨-, -, rfl⟩ := engSrcGetNext_next hu
  cases ht
  refine sound_setup rfl ?_ hc ⟨hfill, hidle, hwalk, ?_, ?_⟩
  · exact hb.of_ledger rfl
  · show { s.producer with
      wrShadow := (s.producer.wrShadow + 1) % (2 * (s.ring idleClass 0).numEntries.toNat) } =
      (⟨s.seq.cursor + 1, 0, 0, true⟩ : Producer)
    rw [hcount, hshadow, hprod, Nat.mod_eq_of_lt (by omega)]
  · show (producerSlot s).toNat = (s.ring idleClass 0).basePa.toNat + idleEntrySize * s.seq.cursor
    rw [producerSlot, hcount, hshadow, Nat.mod_eq_of_lt hlt, BitVec.toNat_ofNat,
      Nat.mod_eq_of_lt (hidle.slot_fits hb hlt)]

theorem setLinkStep_sound {slot : PAddr} {b j : Nat} {s t : State} (hp : s.seq.pos = .setLink slot b j) (h : Sound s)
    (hstep : setLinkStep slot b j s = .next t) : Sound t := by
  obtain ⟨hb, hc, hat⟩ := h.ofSetup (by rw [hp]; rfl)
  unfold SetupAt at hat
  rw [hp] at hat
  obtain ⟨hfill, hidle, hwalk, hprod, -⟩ := hat
  unfold setLinkStep at hstep
  split at hstep
  · cases hstep
  · obtain ⟨u, hu, ht⟩ := andThen_next hstep
    obtain ⟨-, -, rfl⟩ := engSetLinkAddr_next hu
    obtain ⟨b', j', hnext, hwalk'⟩ | ⟨hnext, hend⟩ := (Filling.mk hb hc hfill.1).walk_next hwalk <;> rw [hnext] at ht <;>
      cases ht
    · refine sound_setup rfl ?_ hc ⟨hfill, hidle, hwalk', hprod⟩
      exact hb.of_ledger rfl
    · refine sound_setup rfl ?_ hc ⟨hfill, hidle, ?_⟩
      · exact hb.of_ledger rfl
      · rw [hend] at hprod
        exact hprod

theorem accessEndStep_sound {s : State} (hp : s.seq.pos = .accessEnd) (h : Sound s) : Sound (accessEndStep s) := by
  obtain ⟨hb, hc, hat⟩ := h.ofSetup (by rw [hp]; rfl)
  unfold SetupAt at hat
  rw [hp] at hat
  obtain ⟨hfill, hidle, hprod⟩ := hat
  refine sound_setup rfl (hb.of_ledger rfl) hc ⟨hfill, hidle, ?_⟩
  show { s.producer with wrHw := s.producer.wrShadow, bracketOpen := false } =
    (⟨poolTotal s, poolTotal s, 0, false⟩ : Producer)
  rw [hprod]

theorem publishRingStep_sound {s t : State} (hp : s.seq.pos = .publishRing) (h : Sound s)
    (hstep : publishRingStep s = .next t) : Sound t := by
  obtain ⟨hb, hc, hat⟩ := h.ofSetup (by rw [hp]; rfl)
  obtain ⟨hpos, hpow, -⟩ := hc.plan
  unfold SetupAt at hat
  rw [hp] at hat
  obtain ⟨⟨hnb, hpath, hns⟩, hidle, -⟩ := hat
  unfold publishRingStep at hstep
  split at hstep
  · next s1 hpub =>
    obtain ⟨-, -, e, rfl⟩ := engPublishRing_next hpub
    cases hstep
    have hbooks : Books [] none { s with pool := { s.pool with numScatterBufs := 0 } } :=
      hb.of_ledger (by unfold State.ledger; rw [hns])
    refine sound_rest rfl ?_ ?_
    · exact hbooks.of_ledger rfl
    · unfold PoolAtRest
      exact (if_pos rfl).mpr ⟨hpos, hpow, hnb, hpath.symm, hidle, rfl, rfl⟩
  · next s1 hpub =>
    obtain ⟨-, -, e, rfl⟩ := engPublishRing_next hpub
    cases hstep
    refine startUnwind_sound ?_ .regFail
    exact ⟨hb.of_ledger rfl, .inl hc, fun hno => absurd (hno.symm.trans hidle.1) Bool.false_ne_true⟩
  · cases hstep
  · cases hstep

/-! ### The idle list in scatter buffers (R148 to R152) -/

theorem scatterAllocStep_sound {n : Nat} {s : State} (hp : s.seq.pos = .scatterAlloc n) (h : Sound s) :
    Sound (scatterAllocStep n s) := by
  obtain ⟨hb, hc, hat⟩ := h.ofSetup (by rw [hp]; rfl)
  obtain ⟨-, -, -, hplan⟩ := hc.plan
  have hl := poolLimits hb.valid
  unfold SetupAt at hat
  rw [hp] at hat
  obtain ⟨⟨hnb, hpath, hno⟩, hn, hlt, hcursor⟩ := hat
  unfold scatterAllocStep
  obtain ⟨e, heq⟩ | ⟨e, va, pa, ha, heq⟩ := hostAllocCoherent_cases s.cfg.scatterBufSize s <;> rw [heq]
  · refine startUnwind_sound ?_ .allocFail
    exact ⟨hb.of_ledger rfl, .inl hc, fun _ => hno.2⟩
  · have hbooks := Books.addScat (s := { s with live := s.live ++ [⟨va, pa, BitVec.ofNat 32 s.cfg.scatterBufSize⟩] })
      (x := ⟨va, pa⟩) (hb.alloc (hl.oneBuf.trans hl.word) ha) hn
      (hlt.trans_le (scatterBufsNeeded_le hplan hpath)) (allocAdmissible_fits ha)
    dsimp only
    split
    · next hnext =>
      refine sound_setup rfl ?_ hc ⟨⟨hnb, hpath, hno⟩, rfl, hnext, hcursor⟩
      exact hbooks.of_ledger rfl
    · next hlast =>
      have hneeded : n + 1 = scatterBufsNeeded s.cfg (poolTotal s) := by omega
      refine sound_setup rfl ?_ hc ⟨⟨hnb, hpath, hno⟩, hneeded, (Filling.mk hb hc hnb).walk_start hcursor⟩
      exact hbooks.of_ledger rfl

theorem scatterLinkStep_sound {b j : Nat} {s t : State} (hp : s.seq.pos = .scatterLink b j) (h : Sound s)
    (hstep : scatterLinkStep b j s = .next t) : Sound t := by
  obtain ⟨hb, hc, hat⟩ := h.ofSetup (by rw [hp]; rfl)
  unfold SetupAt at hat
  rw [hp] at hat
  obtain ⟨hfill, hneeded, hwalk⟩ := hat
  obtain ⟨u, hu, ht⟩ := andThen_next hstep
  obtain ⟨-, -, rfl⟩ := engSetLinkAddr_next hu
  obtain ⟨b', j', hnext, hwalk'⟩ | ⟨hnext, hend⟩ := (Filling.mk hb hc hfill.1).walk_next hwalk <;> rw [hnext] at ht <;>
    cases ht
  · refine sound_setup rfl ?_ hc ⟨hfill, hneeded, hwalk'⟩
    exact hb.of_ledger rfl
  · refine sound_setup rfl ?_ hc ⟨hfill, hneeded, ?_⟩
    · exact hb.of_ledger rfl
    · show (BitVec.ofNat 32 (idleEntrySize * (s.seq.cursor % entriesPerScatterBuf s.cfg))).toNat =
        idleEntrySize * ((poolTotal s - 1) % entriesPerScatterBuf s.cfg)
      rw [size_toNat (tail_fits (poolLimits hb.valid) _), ← hend, Nat.add_sub_cancel]

theorem publishScatterStep_sound {s : State} (hp : s.seq.pos = .publishScatter) (h : Sound s) :
    Sound (publishScatterStep s) := by
  obtain ⟨hb, hc, hat⟩ := h.ofSetup (by rw [hp]; rfl)
  obtain ⟨hpos, hpow, -⟩ := hc.plan
  unfold SetupAt at hat
  rw [hp] at hat
  obtain ⟨⟨hnb, hpath, hno⟩, hneeded, htail⟩ := hat
  have hbuf : 1 ≤ s.pool.numScatterBufs := hneeded ▸ scatterBufsNeeded_pos (poolLimits hb.valid) hpos
  unfold publishScatterStep
  obtain ⟨e, ok, heq⟩ := engPublishScatter_eq s
  rw [heq]
  cases ok with
  | true =>
    refine sound_rest rfl ?_ ?_
    · exact hb.of_ledger rfl
    · unfold PoolAtRest
      exact (if_pos rfl).mpr ⟨hpos, hpow, hnb, hpath.symm, hno, hneeded, hbuf, htail⟩
  | false =>
    refine startUnwind_sound ?_ .regFail
    exact ⟨hb.of_ledger rfl, .inl hc, fun _ => hno.2⟩

end Sys2Proof.Machine

namespace Sys2Proof.Machine

/-! ## The invariant under every step (R34, R40, R43, R49, R210) -/

/-! ### The sequencer past its start -/

theorem posStep_sound {s t : State} (hp : s.seq.pos.ofMemory = true) (hs : Sound s) (h : posStep s = .next t) :
    Sound t := by
  unfold posStep at h
  cases hq : s.seq.pos <;> rw [hq] at hp h <;> dsimp only at h
  case ringAlloc r => cases h; exact ringAllocStep_sound hq hs
  case ringRegister r a => cases h; exact ringRegisterStep_sound hq hs
  case ringReject a => exact ringRejectStep_sound hq hs h
  case ringUnregister k i => exact ringUnregisterStep_sound hq hs h
  case ringFree k i => exact ringFreeStep_sound hq hs h
  case bankAlloc b => cases h; exact bankAllocStep_sound hq hs
  case accessStart => exact accessStartStep_sound hq hs h
  case getNext b j => exact getNextStep_sound hq hs h
  case setLink slot b j => exact setLinkStep_sound hq hs h
  case accessEnd => cases h; exact accessEndStep_sound hq hs
  case publishRing => exact publishRingStep_sound hq hs h
  case scatterAlloc n => cases h; exact scatterAllocStep_sound hq hs
  case scatterLink b j => exact scatterLinkStep_sound hq hs h
  case publishScatter => cases h; exact publishScatterStep_sound hq hs
  case unwindScatter => exact unwindScatterStep_sound hq hs h
  case unwindBank => exact unwindBankStep_sound hq hs h
  all_goals cases hp

/-- At the positions of the dispatcher commands and of `SERVICE` the operation is the position's, and the pool is at rest. -/
theorem otherAt_service_iff {s : State} (hp : s.seq.pos.serviceOp ≠ .none) :
    OtherAt s ↔ s.seq.op = s.seq.pos.serviceOp := by
  unfold OtherAt
  cases hq : s.seq.pos <;> rw [hq] at hp
  case registerSource | timerInit | timerStart | freeSource | detachWait | timerStop | timerFree | serviceClaim | serving =>
    cases s.seq.op <;> simp [Pos.serviceOp]
  all_goals exact absurd rfl hp

theorem Pos.service_holds_nothing {p : Pos} (hp : p.serviceOp ≠ .none) : p.held = [] ∧ p.gap = none := by
  cases p
  case ringRegister | ringReject | ringFree => exact absurd rfl hp
  all_goals exact ⟨rfl, rfl⟩

theorem Sound.ofService {s : State} (h : Sound s) (hp : s.seq.pos.serviceOp ≠ .none) :
    Books [] none s ∧ PoolAtRest s ∧ s.seq.op = s.seq.pos.serviceOp := by
  obtain ⟨hb, -, hplace⟩ := h
  have hu := underWay_of_serviceOp hp
  obtain ⟨hheld, hgap⟩ := Pos.service_holds_nothing hp
  rw [hheld, hgap] at hb
  obtain hop | hop | hop := poolOp_cases s
  · have hat := (hplace.setup hu hop).2
    unfold SetupAt at hat
    cases hq : s.seq.pos <;> rw [hq] at hp hat
    case registerSource | timerInit | timerStart | freeSource | detachWait | timerStop | timerFree | serviceClaim | serving =>
      exact hat.elim
    all_goals exact absurd rfl hp
  · have hat := hplace.cleanup hu hop
    unfold CleanupAt at hat
    cases hq : s.seq.pos <;> rw [hq] at hp hat
    case registerSource | timerInit | timerStart | freeSource | detachWait | timerStop | timerFree | serviceClaim | serving =>
      exact hat.elim
    all_goals exact absurd rfl hp
  · obtain ⟨hrest, hat⟩ := hplace.other hu hop
    exact ⟨hb, hrest, (otherAt_service_iff hp).mp hat⟩

/-- The pool at rest depends on the memory half only. -/
theorem PoolAtRest.of_view {s t : State} (h : PoolAtRest s) (hv : t.memoryView = s.memoryView) : PoolAtRest t := by
  have hrings : t.rings = s.rings := congrArg MemoryView.rings hv
  refine h.of_eq (congrArg MemoryView.cfg hv) (congrArg MemoryView.pool hv) (congrArg MemoryView.producer hv) ?_
  rw [State.ring, hrings]
  rfl

/-- A step of a dispatcher command or of `SERVICE` leaves the pool at rest. -/
theorem ServiceStep.sound {o : Op} {s t : State} (h : ServiceStep o s t) (ho : o ≠ .none) (hop : s.seq.op = o)
    (hb : Books [] none s) (hr : PoolAtRest s) : Sound t := by
  have hbooks := hb.of_view h.view
  have hrest := hr.of_view h.view
  obtain hq | ⟨hop', hp⟩ := h.seq
  · exact sound_rest hq hbooks hrest
  · have hne : t.seq.pos.serviceOp ≠ .none := hp ▸ ho
    have hopt : t.seq.op = t.seq.pos.serviceOp := hop'.trans (hop.trans hp.symm)
    have hpool : poolOp t = false := by
      refine poolOp_of_op hopt ?_ ?_ <;> cases t.seq.pos <;> exact nofun
    have hother := placeOk_other hpool (underWay_of_serviceOp hne) hrest ((otherAt_service_iff hne).mpr hopt)
    obtain ⟨hheld, hgap⟩ := Pos.service_holds_nothing hne
    refine ⟨?_, ?_, hother⟩
    · rw [hheld, hgap]
      exact hbooks
    · unfold RingSetupOk
      cases hq : t.seq.pos <;> rw [hq] at hne
      case ringAlloc | ringRegister => exact absurd rfl hne
      all_goals trivial

theorem seqStep_sound {s t : State} (hs : Sound s) (h : seqStep s = .next t) : Sound t := by
  obtain rfl | ⟨hp, -⟩ | ⟨hp, hstep⟩ := seqStep_cases h
  · exact hs
  · unfold seqStep at h
    split at h
    · cases h
      exact hs
    · exact posStep_sound hp hs h
  · obtain ⟨hb, hrest, hop⟩ := hs.ofService hp
    exact hstep.sound hp hop hb hrest

/-! ### The first step of each command -/

/-- Nothing of the command is executed yet (R92 (a)). -/
structure Begun (s : State) : Prop where
  books : Books [] none s
  rest : PoolAtRest s
  cursor : s.seq.cursor = 0

theorem Sound.begun {s : State} (h : Sound s) (hp : s.seq.pos = .start) : Begun s := by
  obtain ⟨hb, -, hplace⟩ := h
  rw [hp] at hb
  exact ⟨hb, hplace.rest (by unfold underWay; rw [hp]), hplace.1 hp⟩

theorem Begun.ended {s : State} (h : Begun s) (e : Err) (r0 r1 : Word) : Sound (complete e r0 r1 s) :=
  sound_rest rfl (h.books.of_ledger rfl) h.rest

theorem Begun.setOp {s : State} (h : Begun s) (o : Op) : Begun (setOp o s) := ⟨h.books.of_ledger rfl, h.rest, h.cursor⟩

theorem beginRingSetup_sound {s : State} (h : Begun s) (cls inst owner : Nat) :
    Sound (beginRingSetup cls inst owner s) := by
  have hop := h.setOp .ringSetup
  unfold beginRingSetup
  dsimp only
  split
  · exact hop.ended .configErr 0 0
  · next hcls => exact ringEnter_sound hop.books (.inr ⟨rfl, hcls, hop.rest⟩)

theorem beginRingCleanup_sound {s : State} (h : Begun s) (cls inst : Nat) : Sound (beginRingCleanup cls inst s) := by
  obtain ⟨hcls, hr, heq⟩ | ⟨e, heq | heq⟩ := beginRingCleanup_cases cls inst s <;> rw [heq]
  · have hjob : CleanJob cls inst (goto (.ringUnregister cls inst) (Machine.setOp .ringCleanup s)) :=
      .inr ⟨rfl, hcls, h.rest⟩
    exact ⟨h.books.of_ledger rfl, trivial, (placeOk_cleanJob_iff (.inl rfl)).mpr ⟨hjob, hr⟩⟩
  · exact h.ended e 0 0
  · have hwarn : Begun (warn s) := ⟨h.books.of_ledger rfl, h.rest, h.cursor⟩
    exact hwarn.ended e 0 0

theorem beginLinkPoolSetup_sound {s : State} (h : Begun s) : Sound (beginLinkPoolSetup s) := by
  have hop := h.setOp .linkPoolSetup
  unfold beginLinkPoolSetup
  dsimp only
  split
  · exact hop.ended .configErr 0 0
  · next hv =>
    have hv : s.pool.valid = false := Bool.eq_false_of_not_eq_true hv
    have hrest := h.rest
    unfold PoolAtRest at hrest
    rw [if_neg (by rw [hv]; decide)] at hrest
    obtain ⟨hpool, hno⟩ := hrest
    split
    · exact hop.ended .configErr 0 0
    · next total hplan =>
      obtain ⟨hpos, hmax, -⟩ := planTotal_some hplan
      have htotal : (BitVec.ofNat 32 total).toNat = total := size_toNat (hmax.trans (by decide))
      have hbooks := h.books.setPool (p := { s.pool with totalLinkDescs := BitVec.ofNat 32 total })
        (by rw [hpool]) (by rw [hpool]) (by rw [hpool]) (by rw [hpool])
      refine sound_setup rfl ?_ ⟨rfl, hv, ?_⟩ ⟨?_, ?_, ?_, hno, h.cursor⟩
      · exact hbooks.of_ledger rfl
      · show planTotal s.cfg (scalar s) = some (BitVec.ofNat 32 total).toNat
        rw [htotal]
        exact hplan
      · show 0 = s.pool.numBanks
        rw [hpool]
      · show 0 < banksNeeded s.cfg (BitVec.ofNat 32 total).toNat
        rw [htotal]
        exact banksNeeded_pos hpos
      · show s.pool.numScatterBufs = 0
        rw [hpool]

/-- With the pool at rest, no idle-list ring means no producer state. -/
theorem PoolAtRest.producer {s : State} (h : PoolAtRest s) (hno : (s.ring idleClass 0).registered = false) :
    s.producer = {} := by
  unfold PoolAtRest at h
  split at h
  · obtain ⟨-, -, -, -, hpath⟩ := h
    split at hpath
    · exact absurd (hno.symm.trans hpath.1.1) Bool.false_ne_true
    · exact hpath.1.2
  · exact h.2.2

theorem beginLinkPoolCleanup_sound {s : State} (h : Begun s) : Sound (beginLinkPoolCleanup s) :=
  startUnwind_sound (s := setOp .linkPoolCleanup s) ⟨h.books.of_ledger rfl, .inr rfl, h.rest.producer⟩ .ok

theorem beginCommand_sound {s : State} (i : Instr) (h : Begun s) : Sound (beginCommand i s) := by
  cases i with
  | nop => exact h.ended .ok 0 0
  | ringSetup cls inst owner => exact beginRingSetup_sound h cls inst owner
  | ringCleanup cls inst => exact beginRingCleanup_sound h cls inst
  | linkPoolSetup => exact beginLinkPoolSetup_sound h
  | linkPoolCleanup => exact beginLinkPoolCleanup_sound h
  | dispAttach =>
    have hop := h.setOp .dispAttach
    exact (beginDispAttach_serviceStep s).sound nofun rfl hop.books hop.rest
  | dispDetach =>
    have hop := h.setOp .dispDetach
    exact (beginDispDetach_serviceStep s).sound nofun rfl hop.books hop.rest
  | service ctx =>
    have hop := h.setOp .service
    exact (beginService_serviceStep ctx s).sound nofun rfl hop.books hop.rest

theorem consistent_sequencer : SequencerKeeps Consistent where
  seqOk _ hs := ((consistent_iff _).mp hs).1
  begins s i hs hp hd :=
    (consistent_iff _).mpr ⟨beginCommand_seqOk hd, beginCommand_sound i (((consistent_iff s).mp hs).2.begun hp)⟩
  illegal s hs hp :=
    (consistent_iff _).mpr ⟨seqOk_of_idle rfl, (((consistent_iff s).mp hs).2.begun hp).ended .illegalCmd 0 0⟩
  steps _ _ hs h :=
    (consistent_iff _).mpr ⟨seqStep_seqOk ((consistent_iff _).mp hs).1 h, seqStep_sound ((consistent_iff _).mp hs).2 h⟩

/-! ### Reset and the host -/

/-- Reset leaves no region, no ring and no pool (R52). -/
theorem resetWith_consistent {c : Config} (hc : configValid c = true) (md : Mode) :
    Consistent (State.resetWith c md) := by
  have hregions : recordedRegions (State.resetWith c md) = [] := by
    have hnone : ringPlaces.filterMap (fun p => ringRegion ((State.resetWith c md).ring p.1 p.2)) = [] :=
      List.filterMap_eq_nil_iff.mpr fun p _ => by rw [reset_ring]; rfl
    rw [recordedRegions, hnone]
    rfl
  have hhandles : ringPlaces.filterMap (recordedHandle none (State.resetWith c md)) = [] :=
    List.filterMap_eq_nil_iff.mpr fun p _ => by rw [recordedHandle, reset_ring]; rfl
  refine (consistent_iff _).mpr ⟨seqOk_of_idle rfl, sound_rest rfl ⟨hc, ⟨nofun, List.Pairwise.nil⟩, fun k _ i _ => ?_,
    ⟨Nat.zero_le _, Nat.zero_le _, fun b _ => ?_, fun n _ => ?_⟩, ?_, ?_⟩ ?_⟩
  · rw [reset_ring]
    exact (if_neg Bool.false_ne_true).mpr rfl
  · rw [reset_bank]
    exact (if_neg (Nat.not_lt_zero b)).mpr rfl
  · rw [reset_scat]
    exact (if_neg (Nat.not_lt_zero n)).mpr rfl
  · rw [hregions]
    exact List.Perm.refl []
  · rw [hhandles]
    exact List.Perm.refl []
  · unfold PoolAtRest
    exact (if_neg Bool.false_ne_true).mpr ⟨rfl, reset_ring c md _ _, rfl⟩

/-- Settles O57: reset puts every table, list and ghost to its empty value. -/
theorem resetIsConsistent : Obligations.ResetIsConsistent := fun _ strap hc =>
  ⟨resetWith_consistent hc strap, resetWith_dispatchOk hc strap, rfl⟩

theorem Consistent.of_view {s t : State} (h : Consistent s) (hv : t.memoryView = s.memoryView ∧ t.seq = s.seq) :
    Consistent t := by
  obtain ⟨hseq, hs⟩ := (consistent_iff s).mp h
  obtain ⟨hv, hq⟩ := hv
  exact (consistent_iff t).mpr ⟨hseq.of_eq (congrArg MemoryView.cmd hv) hq, hs.of_view hv hq⟩

theorem hostWriteAt_consistent (width address : Nat) (v : Word) {s : State} (hs : Consistent s) :
    Consistent (hostWriteAt width address v s) := by
  obtain h | ⟨a, b, c, h⟩ | h | ⟨hidle, h⟩ := hostWriteAt_cases width address v s <;> rw [h]
  · exact hs
  · exact hs.of_view ⟨rfl, rfl⟩
  · exact hs.of_view ⟨rfl, rfl⟩
  · obtain ⟨-, hb, -, hplace⟩ := (consistent_iff s).mp hs
    rw [hidle] at hb
    have hrest : PoolAtRest s := hplace.rest (by unfold underWay; rw [hidle])
    exact (consistent_iff _).mpr ⟨accept_seqOk v s, hb.of_ledger rfl, trivial, placeOk_rest rfl (fun _ => rfl) hrest⟩

theorem applyMove_consistent (m : Move) {s t : State} (hs : Consistent s) (h : applyMove m s = .next t) :
    Consistent t := by
  cases m with
  | reset strap =>
    cases h
    obtain ⟨-, -, ⟨hv, -⟩, -⟩ := hs
    exact (resetWith_consistent hv strap).of_view ⟨rfl, rfl⟩
  | hostWrite width address v => cases h; exact hostWriteAt_consistent width address v hs
  | hostRead width address =>
    cases h
    unfold hostReadAt
    split
    · exact hs.of_view ⟨rfl, rfl⟩
    · exact hs
  | irq source => cases h; exact hs.of_view (deliver_view source s)
  | timerFire => cases h; exact hs.of_view (timerFire_view s)
  | command => exact consistent_sequencer.runAccepted hs h
  | seq => exact consistent_sequencer.seqAgentStep hs h
  | svc c => cases h; exact hs.of_view (svcStep_view c s)
  | poll => cases h; exact hs.of_view (pollStep_view s)
  | extWrite x v =>
    change extWrite x v s = .next t at h
    unfold extWrite at h
    split at h <;> cases h
    exact hs.of_view ⟨rfl, rfl⟩
  | refAlloc answers => cases h; exact hs.of_view ⟨rfl, rfl⟩
  | refEngine answers => cases h; exact hs.of_view ⟨rfl, rfl⟩
  | refPending ring count => cases h; exact hs.of_view ⟨rfl, rfl⟩

/-- Settles O55: the sequencer's positions say how far the records and the ghosts are, each of its steps goes from one such
position to the next, and no other agent writes what they are about. -/
theorem stepKeepsTheMachineConsistent : Obligations.StepKeepsTheMachineConsistent := by
  intro s t hs h
  have he := takeMove_env s
  rw [EnvOnly] at he
  refine applyMove_consistent (takeMove s).1 (hs.of_view ?_) (step_next h).2
  rw [he]
  exact ⟨rfl, rfl⟩

end Sys2Proof.Machine

namespace Sys2Proof.Machine

/-! ## The image of an idle-list entry (R69, R77) -/

theorem leBytes_getElem {v n j : Nat} (h : j < (leBytes v n).length) :
    (leBytes v n)[j] = BitVec.ofNat 8 (v / 256 ^ j) := by
  induction n generalizing v j with
  | zero => simp at h
  | succ n ih =>
    cases j with
    | zero => simp [leBytes]
    | succ j =>
      have hj : j < (leBytes (v / 256) n).length := by simpa using h
      show (leBytes (v / 256) n)[j] = _
      rw [ih hj, Nat.div_div_eq_div_mul, ← pow_succ']

/-- `MemWrite(x, n, v)` leaves byte `j` of `v` at `x + j` (R69). -/
theorem Memory.read_writeLe_inside (m : List Host.Cell) (x v : Nat) {n j : Nat} (h : j < n) :
    Memory.read (Memory.writeLe m x n v) (x + j) = some (BitVec.ofNat 8 (v / 256 ^ j)) := by
  have hj : j < (leBytes v n).length := by rwa [leBytes_length]
  rw [Memory.writeLe, Memory.read_writeBytes_inside _ _ _ hj, leBytes_getElem]

/-- Bytes 0 to 4 of an entry are the descriptor's address (R77). -/
theorem entryImage_addressByte (bank : Nat) (desc : PAddr) {j : Nat} (hj : j < 5) :
    BitVec.ofNat 8 (entryImage bank desc / 256 ^ j) = desc.extractLsb' (8 * j) 8 := by
  refine BitVec.eq_of_toNat_eq ?_
  rw [BitVec.toNat_ofNat, BitVec.extractLsb'_toNat, Nat.shiftRight_eq_div_pow, entryImage]
  interval_cases j <;> omega

/-- Bytes 5 to 7 of an entry are the bank's number and zeros (R77). -/
theorem entryImage_upperBytes {bank : Nat} (hb : bank < 256) (desc : PAddr) :
    entryImage bank desc / 256 ^ 5 = bank ∧ entryImage bank desc / 256 ^ 6 = 0 ∧ entryImage bank desc / 256 ^ 7 = 0 := by
  have hd := desc.isLt
  unfold entryImage
  omega

/-- The converse of `engSetLinkAddr_next`. -/
theorem engSetLinkAddr_live {slot : PAddr} {s : State} (hfit : slot.toNat + idleEntrySize ≤ addressSpace)
    (hlive : ∀ j < idleEntrySize, isLive s (slot.toNat + j) = true) (bank : Nat) (desc : PAddr) :
    engSetLinkAddr slot bank desc s = .next { record .seq (.setLinkAddr slot bank desc) s with
      mem := Memory.writeLe s.mem slot.toNat idleEntrySize (entryImage bank desc) } := by
  have hall : (List.range idleEntrySize).all (fun j => isLive s (slot.toNat + j)) = true :=
    List.all_eq_true.mpr fun j hj => hlive j (List.mem_range.mp hj)
  rw [engSetLinkAddr, if_neg (Nat.not_lt.mpr hfit), if_pos hall]

/-- Settles O15: the write is one `MemWrite` of the entry's image, read back byte by byte. -/
theorem entryImageIsLittleEndian : Obligations.EntryImageIsLittleEndian := by
  intro s slot desc bank hbank hfit hlive
  obtain ⟨hbyte5, hbyte6, hbyte7⟩ := entryImage_upperBytes hbank desc
  refine ⟨_, engSetLinkAddr_live hfit hlive bank desc, fun j hj => ?_, ?_, ?_, ?_, fun x hx => ?_, rfl⟩
  · rw [Memory.read_writeLe_inside _ _ _ (hj.trans (by decide)), entryImage_addressByte bank desc hj]
  · rw [Memory.read_writeLe_inside _ _ _ (by decide), hbyte5]
  · rw [Memory.read_writeLe_inside _ _ _ (by decide), hbyte6]
    rfl
  · rw [Memory.read_writeLe_inside _ _ _ (by decide), hbyte7]
    rfl
  · exact Memory.read_writeLe_outside _ _ hx

end Sys2Proof.Machine

namespace Sys2Proof.Machine

/-! ## What a step does to coherent memory (R65, R66, R71, R282) -/

/-- What a step may do to memory: nothing, take the values from the bytes of a fresh region, or write bytes inside the
address space. -/
inductive MemoryEffect (m : List Host.Cell) : List Host.Cell → Prop where
  | kept : MemoryEffect m m
  | forgotten (lo len : Nat) : MemoryEffect m (Memory.forget m lo len)
  | written {x n : Nat} (v : Nat) (hfit : x + n ≤ addressSpace) : MemoryEffect m (Memory.writeLe m x n v)

theorem MemoryEffect.wf {m m' : List Host.Cell} (h : MemoryEffect m m') (hm : Memory.wf m = true) :
    Memory.wf m' = true := by
  cases h with
  | kept => exact hm
  | forgotten lo len => exact Memory.wf_forget lo len hm
  | written v hfit => exact Memory.wf_writeLe v hfit hm

/-! ### Port operations -/

theorem hostAllocCoherent_mem (size : Nat) (s : State) : MemoryEffect s.mem (hostAllocCoherent size s).2.mem := by
  obtain ⟨e, h⟩ | ⟨e, va, pa, -, h⟩ := hostAllocCoherent_cases size s <;> rw [h]
  · exact .kept
  · exact .forgotten pa.toNat size

theorem hostFreeCoherent_mem {a : Alloc} {s t : State} (h : hostFreeCoherent a s = .next t) : t.mem = s.mem := by
  rw [(hostFreeCoherent_next h).2]
  rfl

@[simp] theorem engRingRegister_mem (r : RingReq) (p : RingParams) (s : State) :
    (engRingRegister r p s).2.mem = s.mem := by
  obtain ⟨e, h⟩ | ⟨e, hnd, -, h⟩ := engRingRegister_cases r p s <;> rw [h] <;> rfl

theorem engSetLinkAddr_mem {slot desc : PAddr} {bank : Nat} {s t : State}
    (h : engSetLinkAddr slot bank desc s = .next t) : MemoryEffect s.mem t.mem := by
  obtain ⟨hfit, -, rfl⟩ := engSetLinkAddr_next h
  exact .written _ hfit

/-! ### `PoolUnwind`, `RingSetup`, `RingCleanup` -/

@[simp] theorem unwindMemory_mem (s : State) : (unwindMemory s).mem = s.mem := by
  unfold unwindMemory
  split_ifs <;> rfl

@[simp] theorem startUnwind_mem (e : Err) (s : State) : (startUnwind e s).mem = s.mem := by
  unfold startUnwind
  dsimp only
  split
  · rfl
  · exact unwindMemory_mem _

@[simp] theorem ringFail_mem (e : Err) (s : State) : (ringFail e s).mem = s.mem := by
  unfold ringFail
  split
  · exact startUnwind_mem e s
  · rfl

@[simp] theorem ringEnter_mem (r : RingReq) (s : State) : (ringEnter r s).mem = s.mem := by
  unfold ringEnter
  split
  · rfl
  · exact ringFail_mem .configErr s

@[simp] theorem ringReturn_mem (r : RingReq) (s : State) : (ringReturn r s).mem = s.mem := by
  unfold ringReturn
  split <;> rfl

@[simp] theorem clearProducer_mem (k : Nat) (s : State) : (clearProducer k s).mem = s.mem := by
  unfold clearProducer
  split <;> rfl

@[simp] theorem ringCleanupReturn_mem (s : State) : (ringCleanupReturn s).mem = s.mem := by
  unfold ringCleanupReturn
  split
  · rfl
  · exact unwindMemory_mem s

theorem unwindScatterStep_mem {s t : State} (h : unwindScatterStep s = .next t) : t.mem = s.mem := by
  obtain ⟨u, hu, ht⟩ := andThen_next h
  have hmem := hostFreeCoherent_mem hu
  cases ht
  exact (unwindMemory_mem _).trans hmem

theorem unwindBankStep_mem {s t : State} (h : unwindBankStep s = .next t) : t.mem = s.mem := by
  obtain ⟨u, hu, ht⟩ := andThen_next h
  have hmem := hostFreeCoherent_mem hu
  cases ht
  exact (unwindMemory_mem _).trans hmem

theorem ringAllocStep_mem (r : RingReq) (s : State) : MemoryEffect s.mem (ringAllocStep r s).mem := by
  have hmem := hostAllocCoherent_mem (ringSize s.cfg r.cls r.entries) s
  unfold ringAllocStep
  split <;> next h =>
    rw [h] at hmem
    simpa using hmem

theorem ringRegisterStep_mem (r : RingReq) (a : Alloc) (s : State) : (ringRegisterStep r a s).mem = s.mem := by
  have hmem := engRingRegister_mem r (ringParams (ringRecord s.cfg r a 0)) s
  unfold ringRegisterStep
  split <;> next h =>
    rw [h] at hmem
    simpa using hmem

theorem ringRejectStep_mem {a : Alloc} {s t : State} (h : ringRejectStep a s = .next t) : t.mem = s.mem := by
  obtain ⟨u, hu, ht⟩ := andThen_next h
  cases ht
  exact (ringFail_mem .regFail u).trans (hostFreeCoherent_mem hu)

theorem ringUnregisterStep_mem {k i : Nat} {s t : State} (h : ringUnregisterStep k i s = .next t) : t.mem = s.mem := by
  obtain ⟨u, hu, ht⟩ := andThen_next h
  obtain ⟨-, rfl⟩ := engRingUnregister_next hu
  cases ht
  rfl

theorem ringFreeStep_mem {k i : Nat} {s t : State} (h : ringFreeStep k i s = .next t) : t.mem = s.mem := by
  obtain ⟨u, hu, ht⟩ := andThen_next h
  cases ht
  simpa using hostFreeCoherent_mem hu

/-! ### `LINK_POOL_SETUP` -/

@[simp] theorem afterBanks_mem (s : State) : (afterBanks s).mem = s.mem := by
  unfold afterBanks
  split
  · exact ringEnter_mem _ s
  · rfl

theorem bankAllocStep_mem (b : Nat) (s : State) : MemoryEffect s.mem (bankAllocStep b s).mem := by
  have hmem := hostAllocCoherent_mem (bankSize s.cfg (poolTotal s) b) s
  unfold bankAllocStep
  split
  · next h =>
    rw [h] at hmem
    simpa using hmem
  · next h =>
    rw [h] at hmem
    dsimp only
    split_ifs <;> simpa using hmem

theorem accessStartStep_mem {s t : State} (h : accessStartStep s = .next t) : t.mem = s.mem := by
  obtain ⟨u, hu, ht⟩ := andThen_next h
  obtain ⟨-, rfl⟩ := engSrcAccessStart_next hu
  cases ht
  rfl

theorem getNextStep_mem {b j : Nat} {s t : State} (h : getNextStep b j s = .next t) : t.mem = s.mem := by
  obtain ⟨u, hu, ht⟩ := andThen_next h
  obtain ⟨-, -, rfl⟩ := engSrcGetNext_next hu
  cases ht
  rfl

theorem setLinkStep_mem {slot : PAddr} {b j : Nat} {s t : State} (h : setLinkStep slot b j s = .next t) :
    MemoryEffect s.mem t.mem := by
  unfold setLinkStep at h
  split at h
  · cases h
  · obtain ⟨u, hu, ht⟩ := andThen_next h
    have hmem := engSetLinkAddr_mem hu
    split at ht <;> cases ht <;> exact hmem

theorem publishRingStep_mem {s t : State} (h : publishRingStep s = .next t) : t.mem = s.mem := by
  unfold publishRingStep at h
  split at h
  · next s1 hp =>
    obtain ⟨-, -, e, rfl⟩ := engPublishRing_next hp
    cases h
    rfl
  · next s1 hp =>
    obtain ⟨-, -, e, rfl⟩ := engPublishRing_next hp
    cases h
    exact startUnwind_mem _ _
  · cases h
  · cases h

theorem scatterAllocStep_mem (n : Nat) (s : State) : MemoryEffect s.mem (scatterAllocStep n s).mem := by
  have hmem := hostAllocCoherent_mem s.cfg.scatterBufSize s
  unfold scatterAllocStep
  split
  · next h =>
    rw [h] at hmem
    simpa using hmem
  · next h =>
    rw [h] at hmem
    dsimp only
    split_ifs <;> simpa using hmem

theorem scatterLinkStep_mem {b j : Nat} {s t : State} (h : scatterLinkStep b j s = .next t) :
    MemoryEffect s.mem t.mem := by
  obtain ⟨u, hu, ht⟩ := andThen_next h
  have hmem := engSetLinkAddr_mem hu
  split at ht <;> cases ht <;> exact hmem

theorem publishScatterStep_mem (s : State) : (publishScatterStep s).mem = s.mem := by
  unfold publishScatterStep
  obtain ⟨e, ok, h⟩ := engPublishScatter_eq s
  rw [h]
  cases ok with
  | true => rfl
  | false => exact startUnwind_mem _ _

/-! ### The dispatcher commands and the service loop -/

@[simp] theorem mapContexts_mem (f : Nat → Ctx → Ctx) (s : State) : (mapContexts f s).mem = s.mem := by
  obtain ⟨cs, h⟩ := mapContexts_frame f s
  rw [h]

@[simp] theorem attachFrom_mem (r : Nat) (s : State) : (attachFrom r s).mem = s.mem := by
  unfold attachFrom
  split <;> rfl

theorem registerSourceStep_mem (r : Nat) (s : State) : (registerSourceStep r s).mem = s.mem := by
  unfold registerSourceStep
  dsimp only
  obtain ⟨e, raw, h⟩ := hostRegisterInterrupt_eq (((relevantSources s)[r]?).getD (0, 0)).1
    (((relevantSources s)[r]?).getD (0, 0)).2 s
  rw [attachFrom_mem, h]
  rfl

@[simp] theorem finishDetach_mem (s : State) : (finishDetach s).mem = s.mem := mapContexts_mem _ s

@[simp] theorem detachFrom_mem (s : State) : (detachFrom s).mem = s.mem := by
  unfold detachFrom
  split
  · exact mapContexts_mem _ s
  · rfl

theorem freeSourceStep_mem (s : State) : (freeSourceStep s).mem = s.mem := by
  unfold freeSourceStep
  rw [detachFrom_mem]
  obtain ⟨-, h⟩ | ⟨r, -, h⟩ := hostFreeLastInterrupt_cases s <;> rw [h]
  rfl

theorem WritesOwn.mem {a : Agent} {c : Nat} {x : Ctx} {s t : State} (h : WritesOwn a c x s t) : t.mem = s.mem := by
  rw [h.frame]

theorem servingStep_mem (c : Nat) (s : State) : (servingStep c s).mem = s.mem := by
  unfold servingStep
  split
  · next t h =>
    obtain ⟨x, -, hw⟩ := loopStep_writesOwn h
    exact hw.mem
  · rfl

/-! ### The sequencer -/

/-- The positions before an allocation or an entry's write: the only ones whose step touches memory. -/
def Pos.touchesMemory : Pos → Bool
  | .ringAlloc _ | .bankAlloc _ | .scatterAlloc _ | .setLink _ _ _ | .scatterLink _ _ => true
  | _ => false

theorem posStep_mem {s t : State} (h : posStep s = .next t) :
    if s.seq.pos.touchesMemory then MemoryEffect s.mem t.mem else t.mem = s.mem := by
  unfold posStep at h
  cases hq : s.seq.pos <;> rw [hq] at h
  case ringAlloc r => cases h; exact ringAllocStep_mem r s
  case bankAlloc b => cases h; exact bankAllocStep_mem b s
  case scatterAlloc n => cases h; exact scatterAllocStep_mem n s
  case setLink slot b j => exact setLinkStep_mem h
  case scatterLink b j => exact scatterLinkStep_mem h
  case ringRegister r a => cases h; exact ringRegisterStep_mem r a s
  case ringReject a => exact ringRejectStep_mem h
  case ringUnregister k i => exact ringUnregisterStep_mem h
  case ringFree k i => exact ringFreeStep_mem h
  case accessStart => exact accessStartStep_mem h
  case getNext b j => exact getNextStep_mem h
  case publishRing => exact publishRingStep_mem h
  case publishScatter => cases h; exact publishScatterStep_mem s
  case unwindScatter => exact unwindScatterStep_mem h
  case unwindBank => exact unwindBankStep_mem h
  case registerSource r => cases h; exact registerSourceStep_mem r s
  case freeSource => cases h; exact freeSourceStep_mem s
  case detachWait => cases h; exact finishDetach_mem s
  case timerFree => cases h; exact finishDetach_mem _
  case serving c => cases h; exact servingStep_mem c s
  all_goals cases h; rfl

theorem seqStep_mem {s t : State} (h : seqStep s = .next t) :
    if s.seq.pos.touchesMemory then MemoryEffect s.mem t.mem else t.mem = s.mem := by
  unfold seqStep at h
  split at h
  · cases h
    split
    · exact .kept
    · rfl
  · exact posStep_mem h

/-! ### The first step of each command -/

@[simp] theorem beginRingSetup_mem (cls inst owner : Nat) (s : State) :
    (beginRingSetup cls inst owner s).mem = s.mem := by
  unfold beginRingSetup
  dsimp only
  split <;> simp

@[simp] theorem beginRingCleanup_mem (cls inst : Nat) (s : State) : (beginRingCleanup cls inst s).mem = s.mem := by
  obtain ⟨-, -, h⟩ | ⟨e, h | h⟩ := beginRingCleanup_cases cls inst s <;> rw [h] <;> rfl

@[simp] theorem beginLinkPoolSetup_mem (s : State) : (beginLinkPoolSetup s).mem = s.mem := by
  unfold beginLinkPoolSetup
  dsimp only
  split
  · rfl
  · split <;> rfl

@[simp] theorem beginLinkPoolCleanup_mem (s : State) : (beginLinkPoolCleanup s).mem = s.mem :=
  startUnwind_mem .ok (setOp .linkPoolCleanup s)

@[simp] theorem beginDispAttach_mem (s : State) : (beginDispAttach s).mem = s.mem := by
  unfold beginDispAttach assignMasks
  dsimp only
  split
  · rfl
  · split <;> simp

@[simp] theorem beginDispDetach_mem (s : State) : (beginDispDetach s).mem = s.mem := by
  unfold beginDispDetach
  dsimp only
  split
  · split <;> simp
  · rfl

@[simp] theorem beginService_mem (ctx : Nat) (s : State) : (beginService ctx s).mem = s.mem := by
  unfold beginService
  dsimp only
  split <;> rfl

/-- The first step of a command is no port operation that touches memory. -/
theorem beginCommand_mem (i : Instr) (s : State) : (beginCommand i s).mem = s.mem := by
  unfold beginCommand
  split
  · rfl
  all_goals simp

/-! ## The canonical form is kept (R65, log 14) -/

theorem MemoryOk.of_mem {s t : State} (h : MemoryOk s) (hm : t.mem = s.mem) : MemoryOk t := by
  unfold MemoryOk at h ⊢
  rwa [hm]

theorem seqStep_memoryOk (s t : State) (hs : MemoryOk s) (h : seqStep s = .next t) : MemoryOk t := by
  have hmem := seqStep_mem h
  split at hmem
  · exact hmem.wf hs
  · exact hs.of_mem hmem

theorem runAccepted_memoryOk {s t : State} (hs : MemoryOk s) (h : runAccepted s = .next t) : MemoryOk t := by
  have hrun : ∀ {n u}, MemoryOk u → runSeq n u = .next t → MemoryOk t := fun hu =>
    runSeq_keeps MemoryOk seqStep_memoryOk _ _ t hu
  unfold runAccepted at h
  split at h
  · split at h
    · next i _ =>
      split at h
      · cases h
      · rw [exec_eq] at h
        unfold runCommand at h
        split at h
        · exact hrun (hs.of_mem (beginCommand_mem i s)) h
        · exact hrun hs h
    · cases h
      exact hs
  · cases h
    exact hs

theorem seqAgentStep_memoryOk {s t : State} (hs : MemoryOk s) (h : seqAgentStep s = .next t) : MemoryOk t := by
  unfold seqAgentStep at h
  split at h
  · split at h
    · next i _ =>
      split at h
      · cases h
      · cases h
        exact hs.of_mem (beginCommand_mem i s)
    · cases h
      exact hs
  · exact seqStep_memoryOk s t hs h

/-- A foreign write is one byte, below `2^40` by its type (R66). -/
theorem extWrite_memoryOk {x : PAddr} {v : Byte} {s t : State} (hs : MemoryOk s) (h : extWrite x v s = .next t) :
    MemoryOk t := by
  unfold extWrite at h
  split at h <;> cases h
  exact Memory.wf_write x.toNat v x.isLt hs

theorem pollStep_mem (s : State) : (pollStep s).mem = s.mem := by
  by_cases hr : s.poll = .restart
  · unfold pollStep
    rw [hr]
    rfl
  · obtain ⟨c, x, u, q, -, -, hw, h⟩ := pollStep_writesOwn hr
    rw [h]
    exact hw.mem

theorem applyMove_memoryOk (m : Move) {s t : State} (hs : MemoryOk s) (h : applyMove m s = .next t) : MemoryOk t := by
  cases m with
  | reset strap => cases h; rfl
  | command => exact runAccepted_memoryOk hs h
  | seq => exact seqAgentStep_memoryOk hs h
  | extWrite x v => exact extWrite_memoryOk hs h
  | hostWrite width address v =>
    cases h
    obtain h | ⟨a, b, c, h⟩ | h | ⟨-, h⟩ := hostWriteAt_cases width address v s <;> rw [h] <;> exact hs
  | hostRead width address =>
    cases h
    unfold hostReadAt
    split <;> exact hs
  | irq source =>
    cases h
    obtain h | ⟨r, -, h⟩ := deliver_cases source s <;> rw [h] <;> exact hs
  | timerFire =>
    cases h
    unfold timerFire
    split <;> exact hs
  | svc c =>
    cases h
    obtain ⟨x, hw⟩ := svcStep_writesOwn c s
    exact hs.of_mem hw.mem
  | poll => cases h; exact hs.of_mem (pollStep_mem s)
  | refAlloc answers => cases h; exact hs
  | refEngine answers => cases h; exact hs
  | refPending ring count => cases h; exact hs

/-- Settles O51: a step's effect on memory is one `MemoryEffect`, one foreign byte or reset's empty memory, and each keeps
the form. -/
theorem stepKeepsMemoryCanonical : Obligations.StepKeepsMemoryCanonical := by
  intro s t hs h
  have he := takeMove_env s
  rw [EnvOnly] at he
  refine applyMove_memoryOk (takeMove s).1 (hs.of_mem ?_) (step_next h).2
  rw [he]

end Sys2Proof.Machine

namespace Sys2Proof.Machine

/-! ## Which commands keep memory and the masks (R46, R66) -/

/-! ### Memory -/

/-- The positions of `RingCleanup` and `PoolUnwind` past their start. -/
def Pos.ofCleanup : Pos → Bool
  | .ringUnregister _ _ | .ringFree _ _ | .unwindScatter | .unwindBank => true
  | _ => false

/-- Where a command that sets up no ring and no pool may stand past its start. -/
def Pos.SparesMemory (p : Pos) : Prop := p = .idle ∨ p.ofCleanup = true ∨ p.serviceOp ≠ .none

theorem Pos.SparesMemory.touches_nothing {p : Pos} (h : p.SparesMemory) : p.touchesMemory = false := by
  unfold Pos.SparesMemory at h
  cases p
  case ringAlloc | bankAlloc | scatterAlloc | setLink | scatterLink => simp [Pos.ofCleanup, Pos.serviceOp] at h
  all_goals rfl

theorem complete_spares (e : Err) (r0 r1 : Word) (s : State) : (complete e r0 r1 s).seq.pos.SparesMemory := .inl rfl

theorem unwindMemory_spares (s : State) : (unwindMemory s).seq.pos.SparesMemory := by
  unfold unwindMemory
  split_ifs
  · exact .inr (.inl rfl)
  · exact .inr (.inl rfl)
  · exact .inl rfl

theorem startUnwind_spares (e : Err) (s : State) : (startUnwind e s).seq.pos.SparesMemory := by
  unfold startUnwind
  dsimp only
  split
  · exact .inr (.inl rfl)
  · exact unwindMemory_spares _

theorem ringCleanupReturn_spares (s : State) : (ringCleanupReturn s).seq.pos.SparesMemory := by
  unfold ringCleanupReturn
  split
  · exact complete_spares _ _ _ s
  · exact unwindMemory_spares s

/-- A cleanup goes on with a cleanup. -/
theorem posStep_cleanup_spares {s t : State} (hp : s.seq.pos.ofCleanup = true) (h : posStep s = .next t) :
    t.seq.pos.SparesMemory := by
  unfold posStep at h
  cases hq : s.seq.pos <;> rw [hq] at hp h
  case ringUnregister k i =>
    obtain ⟨u, -, ht⟩ := andThen_next h
    cases ht
    exact .inr (.inl rfl)
  case ringFree k i =>
    obtain ⟨u, -, ht⟩ := andThen_next h
    cases ht
    exact ringCleanupReturn_spares _
  case unwindScatter =>
    obtain ⟨u, -, ht⟩ := andThen_next h
    cases ht
    exact unwindMemory_spares _
  case unwindBank =>
    obtain ⟨u, -, ht⟩ := andThen_next h
    cases ht
    exact unwindMemory_spares _
  all_goals cases hp

theorem ServiceStep.spares {o : Op} {s t : State} (h : ServiceStep o s t) (ho : o ≠ .none) : t.seq.pos.SparesMemory := by
  obtain hq | ⟨-, hp⟩ := h.seq
  · exact .inl (congrArg Seq.pos hq)
  · exact .inr (.inr (hp ▸ ho))

theorem seqStep_spares {s t : State} (hp : s.seq.pos.SparesMemory) (h : seqStep s = .next t) :
    t.mem = s.mem ∧ t.seq.pos.SparesMemory := by
  have hmem := seqStep_mem h
  rw [hp.touches_nothing] at hmem
  refine ⟨hmem, ?_⟩
  unfold seqStep at h
  split at h
  · cases h
    exact hp
  · obtain hq | hq | hq := hp
    · unfold posStep at h
      rw [hq] at h
      cases h
      exact .inl hq
    · exact posStep_cleanup_spares hq h
    · exact (posStep_serviceStep hq h).spares hq

theorem beginCommand_spares {i : Instr} (hring : ∀ k n o, i ≠ .ringSetup k n o) (hpool : i ≠ .linkPoolSetup) (s : State) :
    (beginCommand i s).seq.pos.SparesMemory := by
  cases i with
  | nop => exact complete_spares _ _ _ s
  | ringSetup k n o => exact absurd rfl (hring k n o)
  | ringCleanup cls inst =>
    show (beginRingCleanup cls inst s).seq.pos.SparesMemory
    obtain ⟨-, -, h⟩ | ⟨e, h | h⟩ := beginRingCleanup_cases cls inst s <;> rw [h]
    · exact .inr (.inl rfl)
    · exact complete_spares _ _ _ s
    · exact complete_spares _ _ _ _
  | linkPoolSetup => exact absurd rfl hpool
  | linkPoolCleanup => exact startUnwind_spares .ok _
  | dispAttach => exact (beginDispAttach_serviceStep s).spares nofun
  | dispDetach => exact (beginDispDetach_serviceStep s).spares nofun
  | service ctx => exact (beginService_serviceStep ctx s).spares nofun

/-! ### Masks -/

/-- Every context has the masks it had. -/
def SameMasks (s t : State) : Prop := ∀ c k, ctxMask (t.ctx c) k = ctxMask (s.ctx c) k

theorem SameMasks.refl (s : State) : SameMasks s s := fun _ _ => rfl

theorem SameMasks.trans {s t u : State} (h : SameMasks s t) (h' : SameMasks t u) : SameMasks s u :=
  fun c k => (h' c k).trans (h c k)

theorem SameMasks.of_ctxs {s t : State} (h : t.ctxs = s.ctxs) : SameMasks s t := fun c k => by
  unfold State.ctx
  rw [h]

theorem MemoryStep.masks {s t : State} (h : MemoryStep s t) : SameMasks s t :=
  .of_ctxs (congrArg ServiceView.ctxs h.view)

/-- Where a command that neither attaches nor detaches may stand past its start. -/
def Pos.SparesMasks (p : Pos) : Prop := p = .idle ∨ p.ofMemory = true ∨ p.serviceOp = .service

theorem MemoryStep.sparesMasks {s t : State} (h : MemoryStep s t) : t.seq.pos.SparesMasks := by
  obtain hq | ⟨-, hp⟩ := h.seq
  · exact .inl (congrArg Seq.pos hq)
  · exact .inr (.inl hp)

theorem ServiceStep.sparesMasks {s t : State} (h : ServiceStep .service s t) : t.seq.pos.SparesMasks := by
  obtain hq | ⟨-, hp⟩ := h.seq
  · exact .inl (congrArg Seq.pos hq)
  · exact .inr (.inr hp)

theorem servingStep_masks (c : Nat) (s : State) : SameMasks s (servingStep c s) := by
  unfold servingStep
  split
  · next t h =>
    obtain ⟨x, -, hw⟩ := loopStep_writesOwn h
    exact hw.masks
  · obtain ⟨x, -, hw⟩ := endInvocation_writesOwn .seq c s
    exact hw.masks

/-- `SERVICE` writes the record of its context, with the masks it had. -/
theorem posStep_service_masks {s t : State} (hp : s.seq.pos.serviceOp = .service) (h : posStep s = .next t) :
    SameMasks s t := by
  unfold posStep at h
  cases hq : s.seq.pos <;> rw [hq] at hp h
  case serviceClaim c =>
    cases h
    exact (writesOwn_setCtx .seq (x := started .seq s.seq.arg (s.ctx c)) fun _ => rfl).masks
  case serving c => cases h; exact servingStep_masks c s
  all_goals cases hp

theorem seqStep_sparesMasks {s t : State} (hp : s.seq.pos.SparesMasks) (h : seqStep s = .next t) :
    SameMasks s t ∧ t.seq.pos.SparesMasks := by
  unfold seqStep at h
  split at h
  · cases h
    exact ⟨.refl _, hp⟩
  · obtain hq | hq | hq := hp
    · unfold posStep at h
      rw [hq] at h
      cases h
      exact ⟨.refl _, .inl hq⟩
    · have hm := posStep_memoryStep hq h
      exact ⟨hm.masks, hm.sparesMasks⟩
    · have hs := posStep_serviceStep (by rw [hq]; exact nofun) h
      rw [hq] at hs
      exact ⟨posStep_service_masks hq h, hs.sparesMasks⟩

theorem beginCommand_sparesMasks {i : Instr} (ha : i ≠ .dispAttach) (hd : i ≠ .dispDetach) (s : State) :
    SameMasks s (beginCommand i s) ∧ (beginCommand i s).seq.pos.SparesMasks := by
  cases i with
  | nop => exact ⟨.refl _, .inl rfl⟩
  | ringSetup cls inst owner =>
    have hm := beginRingSetup_memoryStep cls inst owner s
    exact ⟨hm.masks, hm.sparesMasks⟩
  | ringCleanup cls inst =>
    show SameMasks s (beginRingCleanup cls inst s) ∧ (beginRingCleanup cls inst s).seq.pos.SparesMasks
    obtain ⟨-, -, h⟩ | ⟨e, h | h⟩ := beginRingCleanup_cases cls inst s <;> rw [h]
    · exact ⟨.refl _, .inr (.inl rfl)⟩
    · exact ⟨.refl _, .inl rfl⟩
    · exact ⟨.refl _, .inl rfl⟩
  | linkPoolSetup =>
    have hm := beginLinkPoolSetup_memoryStep s
    exact ⟨hm.masks, hm.sparesMasks⟩
  | linkPoolCleanup =>
    have hm := startUnwind_memoryStep .ok (setOp .linkPoolCleanup s)
    exact ⟨hm.masks, hm.sparesMasks⟩
  | dispAttach => exact absurd rfl ha
  | dispDetach => exact absurd rfl hd
  | service ctx =>
    refine ⟨?_, (beginService_serviceStep ctx s).sparesMasks⟩
    show SameMasks s (beginService ctx s)
    unfold beginService
    dsimp only
    split <;> exact .refl _

/-- Settles O60: a command stands only at positions of its own, and the steps at those of the other commands keep memory,
or the masks. -/
theorem commandsKeepMemoryAndMasks : Obligations.CommandsKeepMemoryAndMasks := by
  intro s t i hstart h
  rw [exec_eq, runCommand_start hstart] at h
  refine ⟨fun hring hpool x => ?_, fun ha hd => ?_⟩
  · have hkept := runSeq_keeps (fun u => u.mem = s.mem ∧ u.seq.pos.SparesMemory)
      (fun u v hu hv => (seqStep_spares hu.2 hv).imp (·.trans hu.1) id) _ _ t
      ⟨beginCommand_mem i s, beginCommand_spares hring hpool s⟩ h
    rw [hkept.1]
  · have hkept := runSeq_keeps (fun u => SameMasks s u ∧ u.seq.pos.SparesMasks)
      (fun u v hu hv => (seqStep_sparesMasks hu.2 hv).imp hu.1.trans id) _ _ t (beginCommand_sparesMasks ha hd s) h
    exact hkept.1

end Sys2Proof.Machine

namespace Sys2Proof.Machine

/-! ## A consistent machine goes on (R65, R67, R146, R212, R218, R228, R295)

Every stop of a port operation is excluded by what `Sound` says of the position that calls it. -/

/-- The outcome is a next state. -/
def Answers (o : Out) : Prop := ∃ t, o = .next t

theorem answers_next (t : State) : Answers (.next t) := ⟨t, rfl⟩

theorem Answers.andThen {o : Out} {f : State → Out} (ho : Answers o) (hf : ∀ u, Answers (f u)) :
    Answers (andThen o f) := by
  obtain ⟨u, rfl⟩ := ho
  exact hf u

/-! ### What is on record is live and registered (R49) -/

theorem Books.recorded_live {held : List Alloc} {gap : Option (Nat × Nat)} {s : State} (h : Books held gap s) {a : Alloc}
    (ha : a ∈ recordedRegions s) : a ∈ s.live :=
  h.regions.mem_iff.mpr (List.mem_append_left held ha)

theorem Books.held_live {a : Alloc} {gap : Option (Nat × Nat)} {s : State} (h : Books [a] gap s) : a ∈ s.live :=
  h.regions.mem_iff.mpr (List.mem_append_right _ (List.mem_singleton_self a))

theorem mem_recordedRegions {s : State} {a : Alloc} :
    a ∈ recordedRegions s ↔ (∃ p ∈ ringPlaces, ringRegion (s.ring p.1 p.2) = some a) ∨
      (∃ b < s.pool.numBanks, ⟨(s.bank b).rawVa, (s.bank b).rawPa, (s.bank b).size⟩ = a) ∨
      ∃ n < s.pool.numScatterBufs, ⟨(s.scat n).va, (s.scat n).pa, BitVec.ofNat 32 s.cfg.scatterBufSize⟩ = a := by
  unfold recordedRegions
  rw [List.mem_append, List.mem_append, List.mem_filterMap, List.mem_map, List.mem_map, or_assoc]
  simp only [List.mem_range]

theorem Books.ring_live {held : List Alloc} {gap : Option (Nat × Nat)} {s : State} (h : Books held gap s) {k i : Nat}
    (hr : (s.ring k i).registered = true) :
    (⟨(s.ring k i).rawVa, (s.ring k i).rawPa, (s.ring k i).rawSize⟩ : Alloc) ∈ s.live :=
  h.recorded_live (mem_recordedRegions.mpr
    (.inl ⟨(k, i), mem_ringPlaces.mpr (ring_place_of_registered hr), if_pos hr⟩))

theorem Books.bank_live {held : List Alloc} {gap : Option (Nat × Nat)} {s : State} (h : Books held gap s) {b : Nat}
    (hb : b < s.pool.numBanks) : (⟨(s.bank b).rawVa, (s.bank b).rawPa, (s.bank b).size⟩ : Alloc) ∈ s.live :=
  h.recorded_live (mem_recordedRegions.mpr (.inr (.inl ⟨b, hb, rfl⟩)))

theorem Books.scat_live {held : List Alloc} {gap : Option (Nat × Nat)} {s : State} (h : Books held gap s) {n : Nat}
    (hn : n < s.pool.numScatterBufs) :
    (⟨(s.scat n).va, (s.scat n).pa, BitVec.ofNat 32 s.cfg.scatterBufSize⟩ : Alloc) ∈ s.live :=
  h.recorded_live (mem_recordedRegions.mpr (.inr (.inr ⟨n, hn, rfl⟩)))

theorem Books.handle_registered {held : List Alloc} {s : State} (h : Books held none s) {k i : Nat}
    (hr : (s.ring k i).registered = true) : (s.ring k i).hnd ∈ s.engReg :=
  h.handles.mem_iff.mpr (List.mem_filterMap.mpr
    ⟨(k, i), mem_ringPlaces.mpr (ring_place_of_registered hr), by simp [recordedHandle, hr]⟩)

/-! ### Port operations -/

theorem hostFreeCoherent_answers {a : Alloc} {s : State} (h : a ∈ s.live) : Answers (hostFreeCoherent a s) :=
  ⟨_, hostFreeCoherent_live h⟩

theorem engRingUnregister_answers {h : Handle} {s : State} (e : h ∈ s.engReg) : Answers (engRingUnregister h s) :=
  ⟨_, engRingUnregister_registered e⟩

theorem engSrcAccessStart_answers {s : State} (h : s.producer.bracketOpen = false) : Answers (engSrcAccessStart s) := by
  rw [engSrcAccessStart, if_neg (by rw [h]; decide)]
  exact answers_next _

theorem engSrcGetNext_answers {s : State} (hopen : s.producer.bracketOpen = true) (hfull : producerFull s = false) :
    Answers (engSrcGetNext s) := by
  rw [engSrcGetNext, if_neg (by rw [hopen]; decide), if_neg (by rw [hfull]; decide)]
  exact answers_next _

/-- An entry inside a live region can be written (R65, R67). -/
theorem engSetLinkAddr_answers {s : State} (hlive : LiveOk s) {a : Alloc} (ha : a ∈ s.live) {slot : PAddr}
    (hlo : a.pa.toNat ≤ slot.toNat) (hhi : slot.toNat + idleEntrySize ≤ a.pa.toNat + a.size.toNat) (bank : Nat)
    (desc : PAddr) : Answers (engSetLinkAddr slot bank desc s) := by
  refine ⟨_, engSetLinkAddr_live (hhi.trans (hlive.1 a ha)) (fun j hj => ?_) bank desc⟩
  refine List.any_eq_true.mpr ⟨a, ha, ?_⟩
  rw [Bool.and_eq_true, decide_eq_true_eq, decide_eq_true_eq]
  omega

theorem engPublishRing_answers {s : State} (hclosed : s.producer.bracketOpen = false)
    (hfull : s.producer.wrHw = (s.ring idleClass 0).numEntries.toNat) : ∃ ok t, engPublishRing s = .next (ok, t) := by
  rw [engPublishRing, if_neg (by rw [hclosed, hfull]; simp)]
  exact ⟨_, _, rfl⟩

/-! ### Frees and unregistrations -/

theorem ringRejectStep_answers {a : Alloc} {s : State} (hp : s.seq.pos = .ringReject a) (h : Sound s) :
    Answers (ringRejectStep a s) := by
  have hb := h.books
  rw [hp] at hb
  exact (hostFreeCoherent_answers hb.held_live).andThen fun _ => answers_next _

theorem ringUnregisterStep_answers {k i : Nat} {s : State} (hp : s.seq.pos = .ringUnregister k i) (h : Sound s) :
    Answers (ringUnregisterStep k i s) := by
  have hb := h.books
  rw [hp] at hb
  obtain ⟨-, hr⟩ := (placeOk_cleanJob_iff (.inl hp)).mp h.place
  exact (engRingUnregister_answers (hb.handle_registered hr)).andThen fun _ => answers_next _

theorem ringFreeStep_answers {k i : Nat} {s : State} (hp : s.seq.pos = .ringFree k i) (h : Sound s) :
    Answers (ringFreeStep k i s) := by
  obtain ⟨-, hr⟩ := (placeOk_cleanJob_iff (.inr hp)).mp h.place
  exact (hostFreeCoherent_answers (h.books.ring_live hr)).andThen fun _ => answers_next _

theorem unwindScatterStep_answers {s : State} (hp : s.seq.pos = .unwindScatter) (h : Sound s) :
    Answers (unwindScatterStep s) := by
  have hat := (h.place.unwinding (.inl hp)).2
  unfold CleanupAt at hat
  rw [hp] at hat
  exact (hostFreeCoherent_answers (h.books.scat_live (Nat.sub_one_lt_of_lt hat.2))).andThen fun _ => answers_next _

theorem unwindBankStep_answers {s : State} (hp : s.seq.pos = .unwindBank) (h : Sound s) :
    Answers (unwindBankStep s) := by
  have hat := (h.place.unwinding (.inr hp)).2
  unfold CleanupAt at hat
  rw [hp] at hat
  obtain ⟨-, -, hn⟩ := hat
  exact (hostFreeCoherent_answers (h.books.bank_live (Nat.sub_one_lt_of_lt hn))).andThen fun _ => answers_next _

/-! ### The idle list in its ring -/

/-- Every entry of the idle-list ring lies inside the ring's own allocation (R34, R143). -/
theorem IdleRing.entry_inside {s : State} (hb : Books [] none s) (h : IdleRing s) {n : Nat} (hn : n < poolTotal s) :
    (s.ring idleClass 0).rawPa.toNat ≤ (s.ring idleClass 0).basePa.toNat + idleEntrySize * n ∧
      (s.ring idleClass 0).basePa.toNat + idleEntrySize * n + idleEntrySize ≤
        (s.ring idleClass 0).rawPa.toNat + (s.ring idleClass 0).rawSize.toNat := by
  obtain ⟨hr, hcount⟩ := h
  have hok := hb.rings idleClass (by decide) 0 (by decide)
  unfold RingOk at hok
  rw [if_pos hr] at hok
  obtain ⟨-, hsize, -, -, hbase, hend, -⟩ := hok
  rw [hcount, hsize, idle_entrySize hb.valid] at hend
  change _ + poolTotal s * 8 ≤ _ at hend
  unfold idleEntrySize
  omega

theorem accessStartStep_answers {s : State} (hp : s.seq.pos = .accessStart) (h : Sound s) :
    Answers (accessStartStep s) := by
  obtain ⟨-, -, hat⟩ := h.ofSetup (by rw [hp]; rfl)
  unfold SetupAt at hat
  rw [hp] at hat
  obtain ⟨-, -, hprod, -⟩ := hat
  exact (engSrcAccessStart_answers (by rw [hprod])).andThen fun _ => answers_next _

/-- The walk finds a free slot: fewer entries are written than the ring has (R220). -/
theorem producerFull_filling {s : State} (hidle : IdleRing s) {n : Nat} (hn : n < poolTotal s)
    (hprod : s.producer = ⟨n, 0, 0, true⟩) : producerFull s = false := by
  have hcount : (s.ring idleClass 0).numEntries.toNat = poolTotal s := congrArg BitVec.toNat hidle.2
  unfold producerFull
  rw [hcount, hprod]
  have hmod : (n + 2 * poolTotal s - 0) % (2 * poolTotal s) = n := by
    rw [Nat.sub_zero, Nat.add_mod_right, Nat.mod_eq_of_lt (by omega)]
  dsimp only
  rw [hmod, Bool.or_eq_false_iff, decide_eq_false_iff_not, decide_eq_false_iff_not]
  omega

theorem getNextStep_answers {b j : Nat} {s : State} (hp : s.seq.pos = .getNext b j) (h : Sound s) :
    Answers (getNextStep b j s) := by
  obtain ⟨hb, hc, hat⟩ := h.ofSetup (by rw [hp]; rfl)
  unfold SetupAt at hat
  rw [hp] at hat
  obtain ⟨hfill, hidle, hwalk, hprod⟩ := hat
  have hlt := (Filling.mk hb hc hfill.1).walk_lt hwalk
  exact (engSrcGetNext_answers (by rw [hprod]) (producerFull_filling hidle hlt hprod)).andThen fun _ => answers_next _

theorem setLinkStep_answers {slot : PAddr} {b j : Nat} {s : State} (hp : s.seq.pos = .setLink slot b j) (h : Sound s) :
    Answers (setLinkStep slot b j s) := by
  obtain ⟨hb, hc, hat⟩ := h.ofSetup (by rw [hp]; rfl)
  unfold SetupAt at hat
  rw [hp] at hat
  obtain ⟨hfill, hidle, hwalk, hprod, hslot⟩ := hat
  obtain ⟨hlo, hhi⟩ := hidle.entry_inside hb ((Filling.mk hb hc hfill.1).walk_lt hwalk)
  rw [← hslot] at hlo hhi
  rw [setLinkStep, if_neg (by simp [hprod])]
  refine (engSetLinkAddr_answers hb.live (hb.ring_live hidle.1) hlo hhi b _).andThen fun _ => ?_
  split <;> exact answers_next _

theorem publishRingStep_answers {s : State} (hp : s.seq.pos = .publishRing) (h : Sound s) :
    Answers (publishRingStep s) := by
  obtain ⟨-, -, hat⟩ := h.ofSetup (by rw [hp]; rfl)
  unfold SetupAt at hat
  rw [hp] at hat
  obtain ⟨-, hidle, hprod⟩ := hat
  have hcount : (s.ring idleClass 0).numEntries.toNat = poolTotal s := congrArg BitVec.toNat hidle.2
  obtain ⟨ok, t, hpub⟩ := engPublishRing_answers (by rw [hprod]) (by rw [hprod, hcount])
  unfold publishRingStep
  rw [hpub]
  cases ok <;> exact answers_next _

/-! ### The idle list in scatter buffers -/

/-- The buffers of an accepted scatter plan hold every entry (R139). -/
theorem scatterPlan_holds {c : Config} {total : Nat} (hp : scatterPlanOk c total = true)
    (hs : idlePathFor c total = .scatter) : total ≤ scatterBufsNeeded c total * entriesPerScatterBuf c := by
  unfold scatterPlanOk at hp
  rw [hs] at hp
  simp only [Bool.and_eq_true, decide_eq_true_eq] at hp
  exact hp.2

/-- Entry number `n` lies inside scatter buffer `n / epsb` (R76, R150). -/
theorem scatterSlot_inside {s : State} (hb : Books [] none s) {n : Nat}
    (hn : n / entriesPerScatterBuf s.cfg < s.pool.numScatterBufs) :
    (s.scat (n / entriesPerScatterBuf s.cfg)).pa.toNat ≤ (scatterSlot s n).toNat ∧
      (scatterSlot s n).toNat + idleEntrySize ≤
        (s.scat (n / entriesPerScatterBuf s.cfg)).pa.toNat + (BitVec.ofNat 32 s.cfg.scatterBufSize).toNat := by
  have hl := poolLimits hb.valid
  obtain ⟨-, hmax, -, hscats⟩ := hb.tables
  have hfit := hscats _ ((hn.trans_le hmax).trans_le hl.bufs)
  rw [if_pos hn] at hfit
  have hmod : n % entriesPerScatterBuf s.cfg < entriesPerScatterBuf s.cfg := Nat.mod_lt _ (entriesPerScatterBuf_pos hl)
  have hmul : entriesPerScatterBuf s.cfg * idleEntrySize ≤ s.cfg.scatterBufSize := Nat.div_mul_le_self _ _
  rw [size_toNat (hl.oneBuf.trans hl.word), scatterSlot, BitVec.toNat_ofNat]
  unfold addressSpace at hfit
  unfold idleEntrySize at hmul ⊢
  omega

theorem scatterLinkStep_answers {b j : Nat} {s : State} (hp : s.seq.pos = .scatterLink b j) (h : Sound s) :
    Answers (scatterLinkStep b j s) := by
  obtain ⟨hb, hc, hat⟩ := h.ofSetup (by rw [hp]; rfl)
  obtain ⟨-, -, -, hplan⟩ := hc.plan
  unfold SetupAt at hat
  rw [hp] at hat
  obtain ⟨⟨hnb, hpath, -⟩, hneeded, hwalk⟩ := hat
  have hlt := (Filling.mk hb hc hnb).walk_lt hwalk
  have hbuf : s.seq.cursor / entriesPerScatterBuf s.cfg < s.pool.numScatterBufs := by
    rw [hneeded]
    exact Nat.div_lt_of_lt_mul (Nat.mul_comm _ _ ▸ hlt.trans_le (scatterPlan_holds hplan hpath))
  obtain ⟨hlo, hhi⟩ := scatterSlot_inside hb hbuf
  refine (engSetLinkAddr_answers hb.live (hb.scat_live hbuf) hlo hhi b _).andThen fun _ => ?_
  split <;> exact answers_next _

/-! ### The sequencer -/

theorem posStep_answers {s : State} (h : Sound s) : Answers (posStep s) := by
  unfold posStep
  cases hq : s.seq.pos
  case ringReject a => exact ringRejectStep_answers hq h
  case ringUnregister k i => exact ringUnregisterStep_answers hq h
  case ringFree k i => exact ringFreeStep_answers hq h
  case accessStart => exact accessStartStep_answers hq h
  case getNext b j => exact getNextStep_answers hq h
  case setLink slot b j => exact setLinkStep_answers hq h
  case publishRing => exact publishRingStep_answers hq h
  case scatterLink b j => exact scatterLinkStep_answers hq h
  case unwindScatter => exact unwindScatterStep_answers hq h
  case unwindBank => exact unwindBankStep_answers hq h
  all_goals exact answers_next _

theorem seqStep_answers {s : State} (h : Sound s) : Answers (seqStep s) := by
  unfold seqStep
  split
  · exact answers_next s
  · exact posStep_answers h

/-- No run of the sequencer stops a sound machine. -/
theorem runSeq_sound_answers {s : State} (h : Sound s) (n : Nat) : Answers (runSeq n s) := by
  obtain ⟨t, ht, -⟩ := runSeq_answers Sound (fun u hu =>
    let ⟨v, hv⟩ := seqStep_answers hu
    ⟨v, hv, seqStep_sound hu hv⟩) n s h
  exact ⟨t, ht⟩

theorem exec_answers {s : State} (h : Sound s) (i : Instr) : Answers (exec i s) := by
  rw [exec_eq]
  unfold runCommand
  split
  · next hstart => exact runSeq_sound_answers (beginCommand_sound i (h.begun hstart)) _
  · exact runSeq_sound_answers h _

/-- The command that a turn of the sequencer takes up breaks R288 (log 24). -/
def RefusesCleanup (s : State) (o : Out) : Prop :=
  o = .refused .ringStillServiced ∧ ∃ i, decode s.cmd = .ok i ∧ CleanupWhileServiced i s

theorem runAccepted_answers {s : State} (h : Sound s) : Answers (runAccepted s) ∨ RefusesCleanup s (runAccepted s) := by
  unfold runAccepted
  split
  · split
    · next i hi =>
      split
      · next hbreak => exact .inr ⟨rfl, i, hi, cleanupWhileServiced_iff.mpr hbreak⟩
      · exact .inl (exec_answers h i)
    · exact .inl (answers_next _)
  · exact .inl (answers_next s)

theorem seqAgentStep_answers {s : State} (h : Sound s) : Answers (seqAgentStep s) ∨ RefusesCleanup s (seqAgentStep s) := by
  unfold seqAgentStep
  split
  · split
    · next i hi =>
      split
      · next hbreak => exact .inr ⟨rfl, i, decoded_eq_some hi, cleanupWhileServiced_iff.mpr hbreak⟩
      · exact .inl (answers_next _)
    · exact .inl (answers_next _)
  · exact .inl (seqStep_answers h)

/-! ### Every move -/

/-- From `s` the move is refused for one of the two breaches that the state shows: a foreign write into an unpublished idle
list (R293), or a cleanup of a ring still serviced (R288). -/
def RefusesBreach (m : Move) (s : State) (o : Out) : Prop :=
  (o = .refused .exclusiveProducerBroken ∧ ∃ x v, m = .extWrite x v ∧ inUnpublishedList s x.toNat = true) ∨
    (o = .refused .ringStillServiced ∧ (m = .command ∨ m = .seq) ∧
      ∃ i, decode s.cmd = .ok i ∧ CleanupWhileServiced i s)

theorem RefusesCleanup.breach {m : Move} {s : State} {o : Out} (h : RefusesCleanup s o) (hm : m = .command ∨ m = .seq) :
    RefusesBreach m s o :=
  let ⟨ho, hi⟩ := h
  .inr ⟨ho, hm, hi⟩

theorem extWrite_answers (x : PAddr) (v : Byte) (s : State) :
    Answers (extWrite x v s) ∨ RefusesBreach (.extWrite x v) s (extWrite x v s) := by
  unfold extWrite
  split
  · next hin => exact .inr (.inl ⟨rfl, x, v, rfl, hin⟩)
  · exact .inl (answers_next _)

theorem applyMove_answers (m : Move) {s : State} (h : Sound s) :
    Answers (applyMove m s) ∨ RefusesBreach m s (applyMove m s) := by
  cases m
  case command => exact (runAccepted_answers h).imp id fun hr => hr.breach (.inl rfl)
  case seq => exact (seqAgentStep_answers h).imp id fun hr => hr.breach (.inr rfl)
  case extWrite x v => exact extWrite_answers x v s
  all_goals exact .inl (answers_next _)

/-- Settles O56: `Sound` holds at every position a run passes through, and at each it gives the port operation what its rule
asks for. -/
theorem consistentMachineStopsOnlyOnBreaches : Obligations.ConsistentMachineStopsOnlyOnBreaches := by
  intro s hs
  obtain ⟨-, hsound⟩ := (consistent_iff s).mp hs
  have he := takeMove_env s
  rw [EnvOnly] at he
  have hmoved : Sound (takeMove s).2 := hsound.of_view (by rw [he]; rfl) (by rw [he])
  have hans := applyMove_answers (takeMove s).1 hmoved
  rw [← step_of_configValid hsound.books.valid] at hans
  rw [he] at hans
  exact hans

end Sys2Proof.Machine

namespace Sys2Proof

/-! ## Encoding and decoding (R90 to R98)

Decoding of a word is agreement with a row of R96, and the operands are then read from the word's fields. -/

/-! ### Fields of a word (R93) -/

theorem wordField_eq (w : Word) (lo len : Nat) : wordField w lo len = w.toNat / 2 ^ lo % 2 ^ len := by
  rw [wordField, BitVec.extractLsb'_toNat, Nat.shiftRight_eq_div_pow]

/-- The top field needs no remainder: nothing lies above it. -/
theorem wordField_top (w : Word) : wordField w 24 8 = w.toNat / 2 ^ 24 := by
  rw [wordField_eq, Nat.mod_eq_of_lt (Nat.div_lt_of_lt_mul (k := 2 ^ 8) w.isLt)]

theorem wordField_bottom (w : Word) (len : Nat) : wordField w 0 len = w.toNat % 2 ^ len := by
  rw [wordField_eq, Nat.pow_zero, Nat.div_one]

theorem wordField_lt (w : Word) (lo len : Nat) : wordField w lo len < 2 ^ len := (w.extractLsb' lo len).isLt

@[simp] theorem fitsField_wordField (w : Word) (lo : Nat) : fitsField (wordField w lo 4) = true :=
  decide_eq_true (wordField_lt w lo 4)

/-! ### Rows of the table (R95, R96) -/

/-- Bits 31:24 of the command's row (R96). -/
def opcode : Instr → Nat
  | .nop => 0x00
  | .ringSetup _ _ _ => 0x10
  | .ringCleanup _ _ => 0x11
  | .linkPoolSetup => 0x20
  | .linkPoolCleanup => 0x21
  | .dispAttach => 0x30
  | .dispDetach => 0x31
  | .service _ => 0x40

theorem opcode_eq_rowMatch_div (i : Instr) : opcode i = Laws.rowMatch i / 2 ^ 24 := by
  cases i <;> simp [opcode, Laws.rowMatch]

theorem opcode_lt (i : Instr) : opcode i < 2 ^ 8 := by cases i <;> simp [opcode]

theorem reservedLength_le (i : Instr) : Laws.reservedLength i ≤ 24 := by cases i <;> simp [Laws.reservedLength]

/-- The word has the opcode of the command's row, and the reserved bits of the row's format are 0 in it (R95). -/
def AgreesWithRow (w : Word) (i : Instr) : Prop :=
  wordField w 24 8 = opcode i ∧ wordField w 0 (Laws.reservedLength i) = 0

/-- The command with every operand read again from the word's field for it (R91). -/
def withOperandsOf (w : Word) : Instr → Instr
  | .nop => .nop
  | .ringSetup _ _ _ => .ringSetup (wordField w 20 4) (wordField w 16 4) (wordField w 12 4)
  | .ringCleanup _ _ => .ringCleanup (wordField w 20 4) (wordField w 16 4)
  | .linkPoolSetup => .linkPoolSetup
  | .linkPoolCleanup => .linkPoolCleanup
  | .dispAttach => .dispAttach
  | .dispDetach => .dispDetach
  | .service _ => .service (wordField w 20 4)

theorem withOperandsOf_wellFormed (w : Word) (i : Instr) : WellFormed (withOperandsOf w i) = true := by
  cases i <;> simp [withOperandsOf, WellFormed]

theorem whenReservedZero_eq_ok_iff {w : Word} {len : Nat} {i j : Instr} :
    whenReservedZero w len j = .ok i ↔ wordField w 0 len = 0 ∧ j = i := by
  unfold whenReservedZero
  split <;> simp [*]

/-- The opcode chooses the row: what remains is the test of its reserved bits. -/
theorem decode_of_opcode {w : Word} {i : Instr} (h : wordField w 24 8 = opcode i) :
    decode w = whenReservedZero w (Laws.reservedLength i) (withOperandsOf w i) := by
  unfold decode
  rw [h]
  cases i <;> rfl

/-- A word without the opcode of any row is no command. -/
theorem opcode_of_decode {w : Word} {i : Instr} (h : decode w = .ok i) :
    ∃ j, wordField w 24 8 = opcode j := by
  unfold decode at h
  split at h
  case h_1 hopc => exact ⟨.nop, hopc⟩
  case h_2 hopc => exact ⟨.ringSetup 0 0 0, hopc⟩
  case h_3 hopc => exact ⟨.ringCleanup 0 0, hopc⟩
  case h_4 hopc => exact ⟨.linkPoolSetup, hopc⟩
  case h_5 hopc => exact ⟨.linkPoolCleanup, hopc⟩
  case h_6 hopc => exact ⟨.dispAttach, hopc⟩
  case h_7 hopc => exact ⟨.dispDetach, hopc⟩
  case h_8 hopc => exact ⟨.service 0, hopc⟩
  case h_9 => cases h

theorem agreesWithRow_withOperandsOf (w : Word) (i : Instr) : AgreesWithRow w (withOperandsOf w i) ↔ AgreesWithRow w i := by
  cases i <;> exact Iff.rfl

theorem withOperandsOf_idem (w : Word) (i : Instr) : withOperandsOf w (withOperandsOf w i) = withOperandsOf w i := by
  cases i <;> rfl

/-- Decoding in one equivalence: the word agrees with the command's row, and the operands are the word's fields. -/
theorem decode_eq_ok_iff {w : Word} {i : Instr} : decode w = .ok i ↔ AgreesWithRow w i ∧ withOperandsOf w i = i := by
  constructor
  · intro h
    obtain ⟨j, hj⟩ := opcode_of_decode h
    rw [decode_of_opcode hj, whenReservedZero_eq_ok_iff] at h
    obtain ⟨hzero, rfl⟩ := h
    exact ⟨(agreesWithRow_withOperandsOf w j).mpr ⟨hj, hzero⟩, withOperandsOf_idem w j⟩
  · rintro ⟨⟨hopc, hzero⟩, hi⟩
    rw [decode_of_opcode hopc]
    exact whenReservedZero_eq_ok_iff.mpr ⟨hzero, hi⟩

/-! ### The encoder -/

theorem rowOfWord (i : Instr) : Laws.RowOfWord.Statement i := by
  cases i with
  | nop => exact Laws.RowOfWord.nop
  | ringSetup cls inst owner => exact Laws.RowOfWord.ringSetup cls inst owner
  | ringCleanup cls inst => exact Laws.RowOfWord.ringCleanup cls inst
  | linkPoolSetup => exact Laws.RowOfWord.linkPoolSetup
  | linkPoolCleanup => exact Laws.RowOfWord.linkPoolCleanup
  | dispAttach => exact Laws.RowOfWord.dispAttach
  | dispDetach => exact Laws.RowOfWord.dispDetach
  | service ctx => exact Laws.RowOfWord.service ctx

theorem encode_agreesWithRow {i : Instr} (h : WellFormed i = true) : AgreesWithRow (encode i) i := by
  obtain ⟨hopc, hzero⟩ := rowOfWord i h
  constructor
  · rw [wordField_top, opcode_eq_rowMatch_div, ← hopc, Nat.mul_div_cancel _ (Nat.two_pow_pos 24)]
  · rw [wordField_bottom, hzero]

/-- The fields of a word do not overlap: each gives back the operand that was put into it. -/
theorem withOperandsOf_encode {i : Instr} (h : WellFormed i = true) : withOperandsOf (encode i) i = i := by
  cases i with
  | ringSetup cls inst owner =>
    simp only [WellFormed, fitsField, Bool.and_eq_true, decide_eq_true_eq] at h
    simp only [withOperandsOf, encode, wordOf, wordField_eq, BitVec.toNat_ofNat, Instr.ringSetup.injEq]
    omega
  | ringCleanup cls inst =>
    simp only [WellFormed, fitsField, Bool.and_eq_true, decide_eq_true_eq] at h
    simp only [withOperandsOf, encode, wordOf, wordField_eq, BitVec.toNat_ofNat, Instr.ringCleanup.injEq]
    omega
  | service ctx =>
    simp only [WellFormed, fitsField, decide_eq_true_eq] at h
    simp only [withOperandsOf, encode, wordOf, wordField_eq, BitVec.toNat_ofNat, Instr.service.injEq]
    omega
  | _ => rfl

theorem decode_encode {i : Instr} (h : WellFormed i = true) : decode (encode i) = .ok i :=
  decode_eq_ok_iff.mpr ⟨encode_agreesWithRow h, withOperandsOf_encode h⟩

theorem wordOf_opcode_rest (w : Word) : wordOf (wordField w 24 8) (w.toNat % 2 ^ 24) = w := by
  rw [wordOf, wordField_top, Nat.div_add_mod', BitVec.ofNat_toNat, BitVec.setWidth_eq]

/-- The opcode, the operand fields and the reserved bits are all the bits there are. -/
theorem encode_withOperandsOf {w : Word} {i : Instr} (h : AgreesWithRow w i) : encode (withOperandsOf w i) = w := by
  obtain ⟨hopc, hzero⟩ := h
  rw [wordField_bottom] at hzero
  have hfields : encode (withOperandsOf w i) = wordOf (opcode i) (w.toNat % 2 ^ 24) := by
    cases i with
    | ringSetup cls inst owner =>
      refine congrArg (wordOf 0x10) ?_
      simp only [Laws.reservedLength] at hzero
      simp only [wordField_eq]
      omega
    | ringCleanup cls inst =>
      refine congrArg (wordOf 0x11) ?_
      simp only [Laws.reservedLength] at hzero
      simp only [wordField_eq]
      omega
    | service ctx =>
      refine congrArg (wordOf 0x40) ?_
      simp only [Laws.reservedLength] at hzero
      simp only [wordField_eq]
      omega
    | _ => exact congrArg (wordOf _) hzero.symm
  rw [hfields, ← hopc, wordOf_opcode_rest]

/-! ### The word as bytes (R69) -/

theorem bytes_append_eq (w : Word) :
    w.extractLsb' 24 8 ++ w.extractLsb' 16 8 ++ w.extractLsb' 8 8 ++ w.extractLsb' 0 8 = w := by
  rw [BitVec.extractLsb'_append_extractLsb'_eq_extractLsb' (start₂ := 24) (start₁ := 16) rfl,
    BitVec.extractLsb'_append_extractLsb'_eq_extractLsb' (start₂ := 16) (start₁ := 8) rfl,
    BitVec.extractLsb'_append_extractLsb'_eq_extractLsb' (start₂ := 8) (start₁ := 0) rfl]
  exact BitVec.extractLsb'_eq_self

/-- The little-endian bytes of a word decode as the word does, and the bytes after them are left over. -/
theorem decodeBytes_wordBytes {w : Word} {i : Instr} (h : decode w = .ok i) (rest : List Byte) :
    decodeBytes (wordBytes w ++ rest) = .ok (i, rest) := by
  simp only [wordBytes, List.cons_append, List.nil_append, decodeBytes, bytes_append_eq, h]

/-- Settles O1: the encoded word agrees with its row, its fields give the operands back, and its bytes give the word back. -/
theorem decodingInvertsEncoding : Obligations.DecodingInvertsEncoding := fun _ rest h =>
  ⟨decode_encode h, decodeBytes_wordBytes (decode_encode h) rest⟩

/-- Settles O2: a decoded command has the word's fields for operands, and those with the row's opcode and zeros are the
whole word. -/
theorem encodingInvertsDecoding : Obligations.EncodingInvertsDecoding := by
  intro w i h
  obtain ⟨hrow, hi⟩ := decode_eq_ok_iff.mp h
  rw [← hi]
  exact ⟨withOperandsOf_wellFormed w i, encode_withOperandsOf hrow⟩

/-! ### Match and mask (R95, R96) -/

/-- Under the top eight bits and the low `len` of 24, a number keeps just those parts. -/
theorem land_top_and_low (n : Nat) {len : Nat} (hlen : len ≤ 24) :
    n &&& (2 ^ 24 * 255 + (2 ^ len - 1)) = n / 2 ^ 24 % 2 ^ 8 * 2 ^ 24 + n % 2 ^ len := by
  have hpow : 2 ^ len ≤ 2 ^ 24 := Nat.pow_le_pow_right Nat.two_pos hlen
  have hpos : 0 < 2 ^ len := Nat.two_pow_pos len
  have hlow : 2 ^ len - 1 < 2 ^ 24 := by omega
  have hdiv : (n &&& (2 ^ 24 * 255 + (2 ^ len - 1))) / 2 ^ 24 = n / 2 ^ 24 % 2 ^ 8 := by
    rw [Nat.and_div_two_pow, Nat.mul_add_div (by decide), Nat.div_eq_of_lt hlow]
    exact Nat.and_two_pow_sub_one_eq_mod _ 8
  have hmod : (n &&& (2 ^ 24 * 255 + (2 ^ len - 1))) % 2 ^ 24 = n % 2 ^ len := by
    rw [Nat.and_mod_two_pow, Nat.mul_add_mod, Nat.mod_eq_of_lt hlow, Nat.and_two_pow_sub_one_eq_mod,
      Nat.mod_mod_of_dvd _ (Nat.pow_dvd_pow 2 hlen)]
  rw [← hdiv, ← hmod, Nat.div_add_mod']

/-- The `match` column of R96 as a word. -/
def matchWord (i : Instr) : Word := BitVec.ofNat 32 (opcode i * 2 ^ 24)

/-- The `mask` column of R96: the opcode and the reserved bits of the row's format. -/
def maskWord (i : Instr) : Word := BitVec.ofNat 32 (2 ^ 24 * 255 + (2 ^ Laws.reservedLength i - 1))

/-- Match and mask test what decoding tests. -/
theorem and_maskWord_eq_iff (w : Word) (i : Instr) : w &&& maskWord i = matchWord i ↔ AgreesWithRow w i := by
  have hpow : 2 ^ Laws.reservedLength i ≤ 2 ^ 24 := Nat.pow_le_pow_right Nat.two_pos (reservedLength_le i)
  have hopc := opcode_lt i
  have hlow : w.toNat % 2 ^ Laws.reservedLength i < 2 ^ Laws.reservedLength i := Nat.mod_lt _ (Nat.two_pow_pos _)
  have hmask : (maskWord i).toNat = 2 ^ 24 * 255 + (2 ^ Laws.reservedLength i - 1) := by
    rw [maskWord, BitVec.toNat_ofNat, Nat.mod_eq_of_lt (by omega)]
  have hmatch : (matchWord i).toNat = opcode i * 2 ^ 24 := by
    rw [matchWord, BitVec.toNat_ofNat, Nat.mod_eq_of_lt (by omega)]
  rw [← BitVec.toNat_inj, BitVec.toNat_and, hmask, hmatch, land_top_and_low _ (reservedLength_le i), AgreesWithRow,
    wordField_eq, wordField_bottom]
  omega

/-- The command of a row is what a word of that row decodes to. -/
theorem decode_row_iff (w : Word) (i : Instr) : decode w = .ok (withOperandsOf w i) ↔ w &&& maskWord i = matchWord i := by
  rw [and_maskWord_eq_iff, decode_eq_ok_iff, agreesWithRow_withOperandsOf, and_iff_left (withOperandsOf_idem w i)]

/-- One command of each row of R96. -/
def rowCommands : List Instr :=
  [.nop, .ringSetup 0 0 0, .ringCleanup 0 0, .linkPoolSetup, .linkPoolCleanup, .dispAttach, .dispDetach, .service 0]

/-- The columns `match` and `mask` of R96. -/
def rowWords : List (Word × Word) := rowCommands.map fun i => (matchWord i, maskWord i)

theorem mem_rowWords (i : Instr) : (matchWord i, maskWord i) ∈ rowWords :=
  List.mem_map.mpr ⟨withOperandsOf 0 i, by cases i <;> simp [withOperandsOf, wordField, rowCommands], by cases i <;> rfl⟩

/-- A word is illegal exactly when it agrees with no row. -/
theorem decode_error_iff (w : Word) : (∃ e, decode w = .error e) ↔ ∀ row ∈ rowWords, w &&& row.2 ≠ row.1 := by
  constructor
  · rintro ⟨e, he⟩ row hrow hw
    obtain ⟨i, -, rfl⟩ := List.mem_map.mp hrow
    rw [(decode_row_iff w i).mpr hw] at he
    cases he
  · intro hnone
    cases hd : decode w with
    | error e => exact ⟨e, rfl⟩
    | ok i =>
      have hrow := (and_maskWord_eq_iff w i).mpr (decode_eq_ok_iff.mp hd).1
      exact absurd hrow (hnone _ (mem_rowWords i))

theorem rowCommands_opcodes : rowCommands.Pairwise fun i j => opcode i ≠ opcode j := by decide

/-- No word agrees with two rows: their opcodes differ. -/
theorem rowWords_disjoint : rowWords.Pairwise fun a b => ∀ w : Word, ¬(w &&& a.2 = a.1 ∧ w &&& b.2 = b.1) := by
  refine List.pairwise_map.mpr (rowCommands_opcodes.imp fun {i j} hne w h => hne ?_)
  obtain ⟨hi, hj⟩ := h
  exact ((and_maskWord_eq_iff w i).mp hi).1.symm.trans ((and_maskWord_eq_iff w j).mp hj).1

/-- Settles O3: each row by `decode_row_iff`, the illegal words and the disjointness over the list of the eight rows. -/
theorem wordsDecodeByMatchAndMask : Obligations.WordsDecodeByMatchAndMask :=
  ⟨fun w => ⟨decode_row_iff w .nop, decode_row_iff w (.ringSetup 0 0 0), decode_row_iff w (.ringCleanup 0 0),
    decode_row_iff w .linkPoolSetup, decode_row_iff w .linkPoolCleanup, decode_row_iff w .dispAttach,
    decode_row_iff w .dispDetach, decode_row_iff w (.service 0), decode_error_iff w⟩, rowWords_disjoint⟩

/-- Settles O4, one row of the table after the other. -/
theorem tableWordsDecode : Obligations.TableWordsDecode := by
  refine ⟨?_, ?_, ?_, ?_, ?_, ?_, ?_, ?_, ?_, ?_, ?_⟩ <;> decide

end Sys2Proof

namespace Sys2Proof.Machine

/-! ## Acceptance and issue of a command (R84, R92) -/

/-! ### The next move is listed -/

theorem takeMove_listed {s : State} {m : Move} {rest : List Move} (h : s.env.moves = m :: rest) :
    takeMove s = (m, moved rest s) := by
  simp [takeMove, h, moved]

theorem step_listed {s : State} {m : Move} {rest : List Move} (hv : configValid s.cfg = true)
    (h : s.env.moves = m :: rest) : step s = applyMove m (moved rest s) := by
  rw [step_of_configValid hv, takeMove_listed h]

theorem busy_iff (s : State) : s.busy = true ↔ s.seq.pos ≠ .idle := by
  unfold State.busy
  split <;> simp_all

theorem decoded_eq_some_iff {w : Word} {i : Instr} : decoded w = some i ↔ decode w = .ok i :=
  ⟨decoded_eq_some, fun h => by simp [decoded, h]⟩

/-! ### What the sequencer's turn does with the accepted word -/

theorem runAccepted_command {s : State} {i : Instr} (hb : s.busy = true) (hd : decode s.cmd = .ok i)
    (hc : ¬CleanupWhileServiced i s) : runAccepted s = exec i s := by
  simp [runAccepted, hb, hd, mt cleanupWhileServiced_iff.mpr hc]

theorem runAccepted_breach {s : State} {i : Instr} (hb : s.busy = true) (hd : decode s.cmd = .ok i)
    (hc : CleanupWhileServiced i s) : runAccepted s = .refused .ringStillServiced := by
  simp [runAccepted, hb, hd, cleanupWhileServiced_iff.mp hc]

theorem runAccepted_illegal {s : State} {e : DecodeError} (hb : s.busy = true) (hd : decode s.cmd = .error e) :
    runAccepted s = .next { s with err := .illegalCmd, res0 := 0, res1 := 0, seq := {} } := by
  simp [runAccepted, hb, hd, completeIllegal, raiseErr, complete]

/-- Settles O5: the turn is `runAccepted` on the state without the move, and the breach of R288 does not see the moves. -/
theorem stepRunsTheDecodedCommand : Obligations.StepRunsTheDecodedCommand := by
  intro s rest hv hm hp
  have hstep : step s = runAccepted (moved rest s) := step_listed hv hm
  have hb : (moved rest s).busy = true := (busy_iff s).mpr hp
  rw [hstep]
  exact ⟨fun i hd hc => runAccepted_command hb hd hc, fun i hd hc => runAccepted_breach hb hd hc,
    fun e hd => runAccepted_illegal hb hd⟩

/-! ### The write of `CMD` -/

theorem hostWriteAt_cmd_idle {s : State} (w : Word) (h : s.seq.pos = .idle) :
    hostWriteAt 4 (s.cfg.mgrBase + 0x004) w s = accept w (decoded w) s := by
  have hb : s.busy = false := Bool.eq_false_iff.mpr fun hb => (busy_iff s).mp hb h
  simp [hostWrite, accessOk, writeCmd, hb]

/-- Settles O7: the write is `accept` on the state without the move. -/
theorem commandWriteIsAcceptedWhenIdle : Obligations.CommandWriteIsAcceptedWhenIdle := by
  intro s w rest hv hm hidle
  have hwrite : hostWriteAt 4 (s.cfg.mgrBase + 0x004) w (moved rest s) = accept w (decoded w) (moved rest s) :=
    hostWriteAt_cmd_idle w hidle
  refine ⟨accept w (decoded w) (moved rest s), ?_, rfl, rfl, rfl, rfl, rfl, fun i hd => ?_, rfl⟩
  · rw [step_listed hv hm]
    exact congrArg Host.Outcome.next hwrite
  · simp [decoded_eq_some_iff.mpr hd]

/-! ### A run as single steps (R92, R191) -/

/-- Where a run of the sequencer goes on, its next step is the agent's own. -/
theorem seqAgentStep_of_running {s : State} (h : seqStopped s = false) : seqAgentStep s = seqStep s := by
  unfold seqAgentStep
  split
  · next hp => simp [seqStopped, hp] at h
  · rfl

/-- A run that answers has taken finitely many steps of the agent. -/
theorem runSeq_is_steps (n : Nat) (s t : State) (h : runSeq n s = .next t) : ∃ m, seqSteps m s = .next t := by
  induction n generalizing s with
  | zero => exact ⟨0, h⟩
  | succ n ih =>
    by_cases hs : seqStopped s = true
    · rw [runSeq_of_stopped hs] at h
      exact ⟨0, h⟩
    · have hgo : seqStopped s = false := Bool.eq_false_iff.mpr hs
      rw [runSeq_step hgo] at h
      obtain ⟨u, hu, ht⟩ := andThen_next h
      obtain ⟨m, hm⟩ := ih u ht
      exact ⟨m + 1, by rw [seqSteps, seqAgentStep_of_running hgo, hu, andThen_next_eq, hm]⟩

/-- Settles O59: the agent's first step begins the command, and the run from there is `runSeq_is_steps`. -/
theorem runOfACommandIsItsSteps : Obligations.RunOfACommandIsItsSteps := by
  intro s t i hp hd hc h
  have hbegin : seqAgentStep s = .next (beginCommand i s) := by
    rw [seqAgentStep_start hp (decoded_eq_some_iff.mpr hd), if_neg (mt cleanupWhileServiced_iff.mpr hc)]
  rw [exec_eq, runCommand_start hp] at h
  obtain ⟨m, hm⟩ := runSeq_is_steps seqFuel (beginCommand i s) t h
  exact ⟨m + 1, by rw [seqSteps, hbegin, andThen_next_eq, hm]⟩

end Sys2Proof.Machine

namespace Sys2Proof.Machine

/-! ## `NOP`, `RING_SETUP` and `RING_CLEANUP` from acceptance to completion (R110 to R125)

No port operation looks at the sequencer, so each step of a run is the port operation on the state the command found. -/

/-! ### The sequencer's record and the port operations -/

/-- `s` while the sequencer stands at `p` of the operation `o`; the rest of the sequencer's record is that of `x`. -/
def standing (o : Op) (p : Pos) (x : Seq) (s : State) : State := { s with seq := { x with op := o, pos := p } }

theorem goto_setOp_eq_standing (o : Op) (p : Pos) (s : State) : goto p (setOp o s) = standing o p s.seq s := rfl

theorem drawAlloc_standing (size : Nat) (o : Op) (p : Pos) (x : Seq) (s : State) :
    drawAlloc size (standing o p x s) = ((drawAlloc size s).1, standing o p x (drawAlloc size s).2) := by
  unfold drawAlloc standing
  dsimp only
  split
  · split <;> rfl
  · split <;> rfl

theorem drawRegister_standing (k i : Nat) (o : Op) (p : Pos) (x : Seq) (s : State) :
    drawRegister k i (standing o p x s) = ((drawRegister k i s).1, standing o p x (drawRegister k i s).2) := by
  unfold drawRegister standing
  dsimp only
  split
  · rfl
  · split <;> rfl

theorem hostAllocCoherent_standing (size : Nat) (o : Op) (p : Pos) (x : Seq) (s : State) :
    hostAllocCoherent size (standing o p x s) =
      ((hostAllocCoherent size s).1, standing o p x (hostAllocCoherent size s).2) := by
  have hadm : allocAdmissible (standing o p x s) size = allocAdmissible s size := rfl
  unfold hostAllocCoherent
  rw [drawAlloc_standing, hadm]
  dsimp only
  split <;> rfl

theorem engRingRegister_standing (r : RingReq) (params : RingParams) (o : Op) (p : Pos) (x : Seq) (s : State) :
    engRingRegister r params (standing o p x s) =
      ((engRingRegister r params s).1, standing o p x (engRingRegister r params s).2) := by
  have hadm : engHandleAdmissible (standing o p x s) = engHandleAdmissible s := rfl
  unfold engRingRegister
  rw [drawRegister_standing, hadm]
  dsimp only
  split <;> rfl

/-! ### The answers of the ports, by what they are -/

/-- `s` after the allocator answered the region `a` to a request of `size` bytes (R210, R282); `e` is the
environment then. -/
def afterAlloc (size : Nat) (a : Alloc) (e : Env) (s : State) : State :=
  { s with
    live := s.live ++ [a], hist := s.hist ++ [⟨.seq, .allocCoherent size (some (a.va, a.pa))⟩],
    mem := Memory.forget s.mem a.pa.toNat size, env := e }

/-- `s` after the region `a` is freed (R212). -/
def afterFree (a : Alloc) (s : State) : State :=
  { s with live := s.live.erase a, hist := s.hist ++ [⟨.seq, .freeCoherent a⟩] }

/-- `s` after the engine took the ring of `r` in as `hnd` (R217); `e` is the environment then. -/
def afterRegister (r : RingReq) (params : RingParams) (hnd : Handle) (e : Env) (s : State) : State :=
  { s with
    engReg := s.engReg ++ [hnd],
    hist := s.hist ++ [⟨.seq, .ringRegister r.cls r.inst r.owner params (some hnd)⟩], env := e }

/-- `s` after the engine gave the handle `hnd` up (R218). -/
def afterUnregister (hnd : Handle) (s : State) : State :=
  { s with engReg := s.engReg.erase hnd, hist := s.hist ++ [⟨.seq, .ringUnregister hnd⟩] }

theorem hostFreeCoherent_eq_afterFree {a : Alloc} {s : State} (h : a ∈ s.live) :
    hostFreeCoherent a s = .next (afterFree a s) :=
  hostFreeCoherent_live h

theorem engRingUnregister_eq_afterUnregister {hnd : Handle} {s : State} (h : hnd ∈ s.engReg) :
    engRingUnregister hnd s = .next (afterUnregister hnd s) := engRingUnregister_registered h

/-- A null answer of the allocator changes the history and the environment only (R210, R229). -/
theorem hostAllocCoherent_of_none {size : Nat} {s : State} (h : (hostAllocCoherent size s).1 = none) :
    ∃ e, hostAllocCoherent size s = (none, record .seq (.allocCoherent size none) { s with env := e }) := by
  obtain hnull | ⟨e, va, pa, -, heq⟩ := hostAllocCoherent_cases size s
  · exact hnull
  · rw [heq] at h
    cases h

/-- A region that the allocator answers is admissible and joins `LIVE`, and its bytes lose their values (R210, R282). -/
theorem hostAllocCoherent_of_some {size : Nat} {s : State} {a : Alloc} (h : (hostAllocCoherent size s).1 = some a) :
    a.size = BitVec.ofNat 32 size ∧ allocAdmissible s size (a.va, a.pa) = true ∧
      ∃ e, hostAllocCoherent size s = (some a, afterAlloc size a e s) := by
  obtain ⟨e, heq⟩ | ⟨e, va, pa, hadm, heq⟩ := hostAllocCoherent_cases size s <;> rw [heq] at h <;> cases h
  exact ⟨rfl, hadm, e, heq⟩

/-- A rejected registration changes the history and the environment only (R217, R229). -/
theorem engRingRegister_of_none {r : RingReq} {params : RingParams} {s : State}
    (h : (engRingRegister r params s).1 = none) :
    ∃ e, engRingRegister r params s =
      (none, record .seq (.ringRegister r.cls r.inst r.owner params none) { s with env := e }) := by
  obtain hnull | ⟨e, hnd, -, heq⟩ := engRingRegister_cases r params s
  · exact hnull
  · rw [heq] at h
    cases h

/-- A handle that the engine answers is new and joins `ENG_REG` (R217). -/
theorem engRingRegister_of_some {r : RingReq} {params : RingParams} {s : State} {hnd : Handle}
    (h : (engRingRegister r params s).1 = some hnd) :
    hnd ≠ 0 ∧ hnd ∉ s.engReg ∧ ∃ e, engRingRegister r params s = (some hnd, afterRegister r params hnd e s) := by
  obtain ⟨e, heq⟩ | ⟨e, hnd', hadm, heq⟩ := engRingRegister_cases r params s <;> rw [heq] at h <;> cases h
  simp only [engHandleAdmissible, Bool.and_eq_true, decide_eq_true_eq, Bool.not_eq_true', List.contains_eq_mem,
    decide_eq_false_iff_not] at hadm
  exact ⟨hadm.1, hadm.2, e, heq⟩

/-- An admissible region meets no live one (R210). -/
theorem allocAdmissible_apart {s : State} {size : Nat} {va : VAddr} {pa : PAddr}
    (h : allocAdmissible s size (va, pa) = true) {b : Alloc} (hb : b ∈ s.live) :
    pa.toNat + size ≤ b.pa.toNat ∨ b.pa.toNat + b.size.toNat ≤ pa.toNat := by
  simp only [allocAdmissible, apart, Bool.and_eq_true, Bool.or_eq_true, decide_eq_true_eq, List.all_eq_true] at h
  exact h.2 b hb

/-- A region that is not empty and meets no live one is none of them. -/
theorem not_mem_live_of_admissible {s : State} {size : Nat} {a : Alloc} (hadm : allocAdmissible s size (a.va, a.pa) = true)
    (hsize : a.size.toNat = size) (hpos : 0 < size) : a ∉ s.live := fun hmem => by
  have := allocAdmissible_apart hadm hmem
  omega

/-- Freeing the newest region gives back the list before it. -/
theorem erase_append_singleton {l : List Alloc} {a : Alloc} (h : a ∉ l) : (l ++ [a]).erase a = l := by
  rw [List.erase_append_right _ h, List.erase_cons_head, List.append_nil]

/-- Forgetting the bytes of a region leaves the others (R282; log 14). -/
theorem read_forget_outside {m : List Host.Cell} {a : Alloc} {size x : Nat} (hsize : a.size.toNat = size)
    (hx : outside x a) : Memory.read (Memory.forget m a.pa.toNat size) x = Memory.read m x := by
  unfold outside at hx
  rw [Memory.read_forget, if_neg (by omega)]

/-! ### One step of a run at a position of the ring procedures -/

/-- The positions of `RingSetup` and `RingCleanup` (R110, R118). -/
def Pos.ofRing : Pos → Bool
  | .ringAlloc _ | .ringRegister _ _ | .ringReject _ | .ringUnregister _ _ | .ringFree _ _ => true
  | _ => false

/-- At these positions the sequencer is never held. -/
theorem seqStopped_ofRing {s : State} (hp : s.seq.pos.ofRing = true) : seqStopped s = false ∧ seqHeld s = false := by
  unfold seqStopped seqHeld
  cases hq : s.seq.pos <;> rw [hq] at hp
  case ringAlloc | ringRegister | ringReject | ringUnregister | ringFree => exact ⟨rfl, rfl⟩
  all_goals cases hp

theorem runSeq_ofRing {s t : State} (hp : s.seq.pos.ofRing = true) (ht : posStep s = .next t) (n : Nat) :
    runSeq (n + 1) s = runSeq n t := by
  obtain ⟨hstopped, hheld⟩ := seqStopped_ofRing hp
  rw [runSeq_step hstopped, seqStep, if_neg (by rw [hheld]; decide), ht, andThen_next_eq]

theorem runSeq_complete (e : Err) (r0 r1 : Word) (s : State) (n : Nat) :
    runSeq n (complete e r0 r1 s) = .next (complete e r0 r1 s) := runSeq_of_stopped rfl n

/-! ### `RingSetup` for `RING_SETUP` -/

section Setup

variable {r : RingReq} {a : Alloc} {hnd : Handle} {x : Seq} {s u : State}

theorem posStep_ringAlloc_null (h : hostAllocCoherent (ringSize s.cfg r.cls r.entries) s = (none, u)) :
    posStep (standing .ringSetup (.ringAlloc r) x s) = .next (complete .allocFail 0 0 u) := by
  have hcfg : (standing .ringSetup (.ringAlloc r) x s).cfg = s.cfg := rfl
  show Host.Outcome.next (ringAllocStep r _) = _
  rw [ringAllocStep, hcfg, hostAllocCoherent_standing, h]
  rfl

theorem posStep_ringAlloc_region (h : hostAllocCoherent (ringSize s.cfg r.cls r.entries) s = (some a, u)) :
    posStep (standing .ringSetup (.ringAlloc r) x s) = .next (standing .ringSetup (.ringRegister r a) x u) := by
  have hcfg : (standing .ringSetup (.ringAlloc r) x s).cfg = s.cfg := rfl
  show Host.Outcome.next (ringAllocStep r _) = _
  rw [ringAllocStep, hcfg, hostAllocCoherent_standing, h]
  rfl

theorem posStep_ringRegister_rejected (h : engRingRegister r (ringParams (ringRecord s.cfg r a 0)) s = (none, u)) :
    posStep (standing .ringSetup (.ringRegister r a) x s) = .next (standing .ringSetup (.ringReject a) x u) := by
  have hcfg : (standing .ringSetup (.ringRegister r a) x s).cfg = s.cfg := rfl
  show Host.Outcome.next (ringRegisterStep r a _) = _
  rw [ringRegisterStep, hcfg, engRingRegister_standing, h]
  rfl

/-- `RES0` and `RES1` of a `RING_SETUP` that has stored its record (R110). -/
def completeRing (r : RingReq) (s : State) : State :=
  complete .ok (BitVec.ofNat 32 (8 * r.cls + r.inst)) ((s.ring r.cls r.inst).basePa.extractLsb' 0 32) s

theorem posStep_ringRegister_registered (hk : r.cls ≠ idleClass)
    (h : engRingRegister r (ringParams (ringRecord s.cfg r a 0)) s = (some hnd, u)) :
    posStep (standing .ringSetup (.ringRegister r a) x s) =
      .next (completeRing r (setRing r.cls r.inst (ringRecord s.cfg r a hnd) u)) := by
  have hcfg : (standing .ringSetup (.ringRegister r a) x s).cfg = s.cfg := rfl
  show Host.Outcome.next (ringRegisterStep r a _) = _
  rw [ringRegisterStep, hcfg, engRingRegister_standing, h]
  dsimp only
  rw [clearProducer_other hk]
  rfl

theorem posStep_ringReject_live (h : a ∈ s.live) :
    posStep (standing .ringSetup (.ringReject a) x s) =
      .next (complete .regFail 0 0 (afterFree a s)) := by
  have hlive : a ∈ (standing .ringSetup (.ringReject a) x s).live := h
  show ringRejectStep a _ = _
  rw [ringRejectStep, hostFreeCoherent_eq_afterFree hlive, andThen_next_eq]
  rfl

end Setup

/-- The entries of a ring take at least one byte, and its class has an alignment (R15). -/
theorem ring_bytes_pos {c : Config} (hc : configValid c = true) {k i n : Nat} (hslot : slotExists c k i = true)
    (hn : n ≠ 0) : 0 < n * (classOf c k).entrySize.toNat ∧ 0 < (classOf c k).align := by
  obtain ⟨hentry, halign⟩ := class_limits hc hslot
  exact ⟨Nat.mul_pos (Nat.pos_of_ne_zero hn) hentry, halign⟩

/-- `RING_SETUP` is accepted with a request that passes the checks of R111 and R117 (d). -/
structure LegalSetup (s : State) (r : RingReq) : Prop where
  accepted : Accepted s r.entries
  cls : r.cls ≠ idleClass
  request : ringRequestOk s r = true

theorem exec_ringSetup_start {s : State} {r : RingReq} (h : Accepted s r.entries) (hk : r.cls ≠ idleClass) :
    exec (.ringSetup r.cls r.inst r.owner) s = runSeq seqFuel (ringEnter r (setOp .ringSetup s)) := by
  obtain ⟨hp, -, -, hn⟩ := h
  rw [exec_eq, runCommand_start hp]
  show runSeq seqFuel (beginRingSetup r.cls r.inst r.owner s) = _
  rw [beginRingSetup, if_neg hk, hn]

namespace LegalSetup

variable {s u v : State} {r : RingReq} {a : Alloc} {hnd : Handle}

theorem size_le (h : LegalSetup s r) : ringSize s.cfg r.cls r.entries ≤ wordMax := by
  obtain ⟨-, -, -, hsize⟩ := (ringRequestOk_iff s r).mp h.request
  exact hsize

/-- A legal request asks for at least one byte. -/
theorem size_pos (h : LegalSetup s r) (hc : configValid s.cfg = true) : 0 < ringSize s.cfg r.cls r.entries := by
  obtain ⟨hslot, -, hn, -⟩ := (ringRequestOk_iff s r).mp h.request
  obtain ⟨hbytes, halign⟩ := ring_bytes_pos hc hslot hn
  unfold ringSize
  omega

/-- The region just obtained has the size asked for. -/
theorem region_size (h : LegalSetup s r) (ha : a.size = BitVec.ofNat 32 (ringSize s.cfg r.cls r.entries)) :
    a.size.toNat = ringSize s.cfg r.cls r.entries := by rw [ha, size_toNat h.size_le]

theorem exec_eq_run (h : LegalSetup s r) : exec (.ringSetup r.cls r.inst r.owner) s =
    runSeq seqFuel (standing .ringSetup (.ringAlloc r) s.seq s) := by
  have hrequest : ringRequestOk (setOp .ringSetup s) r = true := h.request
  rw [exec_ringSetup_start h.accepted h.cls, ringEnter, if_pos hrequest, goto_setOp_eq_standing]

/-- A null answer ends the command (R112). -/
theorem exec_null (h : LegalSetup s r) (ha : hostAllocCoherent (ringSize s.cfg r.cls r.entries) s = (none, u)) :
    exec (.ringSetup r.cls r.inst r.owner) s = .next (complete .allocFail 0 0 u) := by
  have hfuel : seqFuel = seqFuel - 1 + 1 := rfl
  rw [h.exec_eq_run, hfuel, runSeq_ofRing rfl (posStep_ringAlloc_null ha), runSeq_complete]

/-- With a region obtained, the run goes on at the registration. -/
theorem exec_region (h : LegalSetup s r) (ha : hostAllocCoherent (ringSize s.cfg r.cls r.entries) s = (some a, u)) :
    exec (.ringSetup r.cls r.inst r.owner) s =
      runSeq (seqFuel - 1) (standing .ringSetup (.ringRegister r a) s.seq u) := by
  have hfuel : seqFuel = seqFuel - 1 + 1 := rfl
  rw [h.exec_eq_run, hfuel, runSeq_ofRing rfl (posStep_ringAlloc_region ha)]
  rfl

/-- An accepted registration stores the record and completes (R110, R115). -/
theorem exec_registered (h : LegalSetup s r) (ha : hostAllocCoherent (ringSize s.cfg r.cls r.entries) s = (some a, u))
    (hr : engRingRegister r (ringParams (ringRecord u.cfg r a 0)) u = (some hnd, v)) :
    exec (.ringSetup r.cls r.inst r.owner) s =
      .next (completeRing r (setRing r.cls r.inst (ringRecord u.cfg r a hnd) v)) := by
  have hfuel : seqFuel - 1 = seqFuel - 2 + 1 := rfl
  rw [h.exec_region ha, hfuel, runSeq_ofRing rfl (posStep_ringRegister_registered h.cls hr), completeRing,
    runSeq_complete]

/-- A rejected registration frees the region and ends the command (R115, R116). -/
theorem exec_rejected (h : LegalSetup s r) (ha : hostAllocCoherent (ringSize s.cfg r.cls r.entries) s = (some a, u))
    (hr : engRingRegister r (ringParams (ringRecord u.cfg r a 0)) u = (none, v)) (hlive : a ∈ v.live) :
    exec (.ringSetup r.cls r.inst r.owner) s =
      .next (complete .regFail 0 0 (afterFree a v)) := by
  have hfuel : seqFuel - 1 = seqFuel - 3 + 1 + 1 := rfl
  rw [h.exec_region ha, hfuel, runSeq_ofRing rfl (posStep_ringRegister_rejected hr),
    runSeq_ofRing rfl (posStep_ringReject_live hlive), runSeq_complete]

end LegalSetup

/-- What the statements suppose of a request is `LegalSetup`. -/
theorem legalSetup {s : State} {n k i o : Nat} (hacc : Accepted s n) (hk : k ≠ idleClass)
    (hslot : slotExists s.cfg k i = true) (hno : (s.ring k i).registered = false) (hn : n ≠ 0)
    (hsize : n * (classOf s.cfg k).entrySize.toNat + (classOf s.cfg k).align - 1 ≤ 2 ^ 32 - 1) :
    LegalSetup s ⟨k, i, o, n⟩ :=
  ⟨hacc, hk, (ringRequestOk_iff s _).mpr ⟨hslot, hno, hn, hsize⟩⟩

/-- Settles O19, by `LegalSetup.exec_null`. -/
theorem ringSetupFailsWithoutMemory : Obligations.RingSetupFailsWithoutMemory := by
  intro s n k i o hacc hk hslot hno hn hsize hnull
  have hlegal : LegalSetup s ⟨k, i, o, n⟩ := legalSetup hacc hk hslot hno hn hsize
  obtain ⟨e, heq⟩ := hostAllocCoherent_of_none hnull
  exact ⟨e, hlegal.exec_null heq⟩

/-- Settles O20, by `LegalSetup.exec_rejected`: the region freed is the one just obtained, which no live region equals. -/
theorem ringSetupFailsWhenRejected : Obligations.RingSetupFailsWhenRejected := by
  intro s n k i o a hc hacc hk hslot hno hn hsize hregion hreject
  have hlegal : LegalSetup s ⟨k, i, o, n⟩ := legalSetup hacc hk hslot hno hn hsize
  obtain ⟨ha, hadm, e, heq⟩ := hostAllocCoherent_of_some hregion
  have hbytes := hlegal.region_size ha
  rw [heq] at hreject
  obtain ⟨e', heq'⟩ := engRingRegister_of_none hreject
  have hfresh : a ∉ s.live := not_mem_live_of_admissible hadm hbytes (hlegal.size_pos hc)
  refine ⟨_, hlegal.exec_rejected heq heq' (List.mem_append_right _ (List.mem_singleton_self a)),
    fun x hx => read_forget_outside hbytes hx, ?_⟩
  simp [complete, afterFree, record, afterAlloc, ringSize, erase_append_singleton hfresh]

/-- R113: an aligned base inside the region that holds the ring loses no bit. -/
theorem ringBase_toNat {c : Config} (hc : configValid c = true) {k i n : Nat} (hslot : slotExists c k i = true)
    (hn : n ≠ 0) {pa : PAddr} (hfit : pa.toNat + ringSize c k n ≤ addressSpace) :
    (alignedPa pa (classOf c k).align).toNat = alignUp pa.toNat (classOf c k).align := by
  obtain ⟨hbytes, halign⟩ := ring_bytes_pos hc hslot hn
  unfold ringSize at hfit
  exact alignedPa_toNat halign (by omega)

/-- The engine is told the parameters of the record that is stored, whose handle it answers (R114). -/
theorem ringParams_ringRecord (c : Config) (r : RingReq) (a : Alloc) (hnd : Handle) :
    ringParams (ringRecord c r a hnd) = ringParams (ringRecord c r a 0) := rfl

/-- Settles O17, by `LegalSetup.exec_registered`. -/
theorem ringSetupRecordsTheRing : Obligations.RingSetupRecordsTheRing := by
  intro s n k i o a hnd hc hacc hk hslot hno hn hsize hregion hregister
  have hlegal : LegalSetup s ⟨k, i, o, n⟩ := legalSetup hacc hk hslot hno hn hsize
  obtain ⟨hk16, hi8⟩ := slotExists_bounds hc hslot
  obtain ⟨ha, hadm, e, heq⟩ := hostAllocCoherent_of_some hregion
  have hbytes := hlegal.region_size ha
  rw [heq] at hregister
  obtain ⟨h0, hnew, e', heq'⟩ := engRingRegister_of_some hregister
  have hrun := hlegal.exec_registered heq heq'
  generalize ht : completeRing _ (setRing _ _ _ _) = t at hrun
  have hring : t.ring k i = ringRecord s.cfg ⟨k, i, o, n⟩ a hnd := by
    subst ht
    exact setRing_ring_same hk16 hi8 _ _
  refine ⟨t, hrun, ?_, ?_, h0, hnew, ?_, ?_, ?_, ?_⟩
  · rw [hring, ringRecord, ha]
    simp only [lowThreshold, ringSize, alignedPa]
    split <;> rfl
  · rw [hring]
    exact ringBase_toNat hc hslot hn (allocAdmissible_fits hadm)
  · intro b hb
    rw [hbytes]
    exact allocAdmissible_apart hadm hb
  · intro k' hk' i' hi' hne
    subst ht
    exact setRing_ring_other hk' hi' (fun e => hne ⟨e.1.symm, e.2.symm⟩) _ _
  · intro x hx
    subst ht
    exact read_forget_outside hbytes hx
  · rw [hring, ringParams_ringRecord, ← ht, completeRing, setRing_ring_same hk16 hi8]
    simp [complete, setRing, afterRegister, afterAlloc, ringSize]

/-! ### The refusals of `RING_SETUP` (R111, R117 (d)) -/

/-- A class that is invalid, or has too few instances, has no such slot (R97). -/
theorem slotExists_eq_false {c : Config} {k i : Nat} (h : (classOf c k).valid = false ∨ (classOf c k).maxInst ≤ i) :
    slotExists c k i = false := by
  unfold slotExists
  obtain h | h := h
  · rw [h, Bool.false_and]
  · rw [decide_eq_false (Nat.not_lt.mpr h), Bool.and_false]

theorem exec_ringSetup_refused {s : State} {r : RingReq} (hacc : Accepted s r.entries)
    (h : r.cls = idleClass ∨ ringRequestOk s r = false) :
    exec (.ringSetup r.cls r.inst r.owner) s = .next (complete .configErr 0 0 s) := by
  by_cases hk : r.cls = idleClass
  · rw [exec_eq, runCommand_start hacc.1]
    show runSeq seqFuel (beginRingSetup r.cls r.inst r.owner s) = _
    rw [beginRingSetup, if_pos hk]
    exact runSeq_complete _ _ _ _ _
  · have hbad : ¬ringRequestOk (setOp .ringSetup s) r = true := Bool.eq_false_iff.mp (h.resolve_left hk)
    rw [exec_ringSetup_start hacc hk, ringEnter, if_neg hbad]
    exact runSeq_complete _ _ _ _ _

/-- Settles O18: each named request is class 5 or fails a check of R111. -/
theorem ringSetupConfigurationErrors : Obligations.RingSetupConfigurationErrors := by
  intro s n k i o hacc hbad
  refine exec_ringSetup_refused (r := ⟨k, i, o, n⟩) hacc ?_
  rw [Bool.eq_false_iff, ne_eq, ringRequestOk_iff]
  by_contra! hgood
  obtain ⟨hk, hslot, hno, hn, hsize⟩ := hgood
  obtain hbad | hbad | hbad | hbad | hbad | hbad := hbad
  · exact hk hbad
  · exact absurd hslot (Bool.eq_false_iff.mp (slotExists_eq_false (.inl hbad)))
  · exact absurd hslot (Bool.eq_false_iff.mp (slotExists_eq_false (.inr hbad)))
  · exact Bool.eq_false_iff.mp hno hbad
  · exact hn hbad
  · exact absurd hsize (Nat.not_le.mpr hbad)

/-! ### `RING_CLEANUP` -/

theorem exec_ringCleanup_start {s : State} (hp : s.seq.pos = .start) (k i : Nat) :
    exec (.ringCleanup k i) s = runSeq seqFuel (beginRingCleanup k i s) := by
  rw [exec_eq, runCommand_start hp]
  rfl

/-- Settles O23: the first step refuses each of these operands. -/
theorem ringCleanupConfigurationErrors : Obligations.RingCleanupConfigurationErrors := by
  intro s k i hp hbad
  have hbegin : beginRingCleanup k i s = complete .configErr 0 0 s := by
    unfold beginRingCleanup
    by_cases hk : k = idleClass
    · exact if_pos hk
    · have hslot : ¬slotExists s.cfg k i = true := Bool.eq_false_iff.mp (slotExists_eq_false (hbad.resolve_left hk))
      exact (if_neg hk).trans (if_neg hslot)
  rw [exec_ringCleanup_start hp, hbegin]
  exact runSeq_complete _ _ _ _ _

/-- R29: counting a warning is adding one, up to the counter's end. -/
theorem warn_eq_saturating (s : State) :
    warn s = { s with warnCnt := BitVec.ofNat 32 (min (s.warnCnt.toNat + 1) (2 ^ 32 - 1)) } := by
  have hcount : (if s.warnCnt = 0xFFFFFFFF then s.warnCnt else s.warnCnt + 1) =
      BitVec.ofNat 32 (min (s.warnCnt.toNat + 1) (2 ^ 32 - 1)) := by
    split
    · next h => rw [h]; rfl
    · next h =>
      have hne : s.warnCnt.toNat ≠ 0xFFFFFFFF := fun e => h (BitVec.eq_of_toNat_eq e)
      rw [Nat.min_eq_left (by have := s.warnCnt.isLt; omega), BitVec.ofNat_add, BitVec.ofNat_toNat, BitVec.setWidth_eq]
      rfl
  rw [warn, hcount]

/-- Settles O22: the first step warns and completes. -/
theorem ringCleanupOfUnregisteredRingWarns : Obligations.RingCleanupOfUnregisteredRingWarns := by
  intro s k i hp hk hslot hno
  have hbegin : beginRingCleanup k i s = complete .ok 0 0 (warn s) := by
    unfold beginRingCleanup
    rw [if_neg hk, if_pos hslot, if_neg (by rw [hno]; decide)]
    rfl
  rw [exec_ringCleanup_start hp, hbegin, runSeq_complete, warn_eq_saturating]
  rfl

theorem posStep_ringUnregister_registered {k i : Nat} {x : Seq} {s : State} (h : (s.ring k i).hnd ∈ s.engReg) :
    posStep (standing .ringCleanup (.ringUnregister k i) x s) =
      .next (standing .ringCleanup (.ringFree k i) x (afterUnregister (s.ring k i).hnd s)) := by
  have hreg : (s.ring k i).hnd ∈ (standing .ringCleanup (.ringUnregister k i) x s).engReg := h
  show andThen (engRingUnregister (s.ring k i).hnd _) _ = _
  rw [engRingUnregister_eq_afterUnregister hreg, andThen_next_eq]
  rfl

/-- The raw region of a ring record (R33). -/
def RingRec.region (r : RingRec) : Alloc := ⟨r.rawVa, r.rawPa, r.rawSize⟩

theorem posStep_ringFree_live {k i : Nat} (hk : k ≠ idleClass) {x : Seq} {s : State} (h : (s.ring k i).region ∈ s.live) :
    posStep (standing .ringCleanup (.ringFree k i) x s) =
      .next (complete .ok 0 0 (setRing k i {} (afterFree (s.ring k i).region s))) := by
  have hlive : (s.ring k i).region ∈ (standing .ringCleanup (.ringFree k i) x s).live := h
  show andThen (hostFreeCoherent (s.ring k i).region _) _ = _
  rw [hostFreeCoherent_eq_afterFree hlive, andThen_next_eq, clearProducer_other hk]
  rfl

/-- Settles O21: the two port operations of `RingCleanup`, one after the other. -/
theorem ringCleanupFreesTheRing : Obligations.RingCleanupFreesTheRing := by
  intro s k i hp hk hk16 hi8 hslot hreg hhnd hlive
  have hbegin : beginRingCleanup k i s = standing .ringCleanup (.ringUnregister k i) s.seq s := by
    unfold beginRingCleanup
    rw [if_neg hk, if_pos hslot, if_pos hreg, goto_setOp_eq_standing]
  have hfuel : seqFuel = seqFuel - 2 + 1 + 1 := rfl
  have hrun := exec_ringCleanup_start hp k i
  have hfree := posStep_ringFree_live hk (x := s.seq) (s := afterUnregister (s.ring k i).hnd s) hlive
  rw [hbegin, hfuel, runSeq_ofRing rfl (posStep_ringUnregister_registered hhnd), runSeq_ofRing rfl hfree,
    runSeq_complete] at hrun
  exact ⟨_, hrun, setRing_ring_same hk16 hi8 _ _,
    fun k' hk' i' hi' hne => setRing_ring_other hk' hi' (fun e => hne ⟨e.1.symm, e.2.symm⟩) _ _, by
      simp [complete, setRing, afterFree, afterUnregister, RingRec.region, State.ring]⟩

/-! ### `NOP` -/

/-- Settles O16: the first step of `NOP` completes it (R125). -/
theorem nopCompletes : Obligations.NopCompletes := by
  refine ⟨rfl, fun s hp => ?_⟩
  rw [exec_eq, runCommand_start hp]
  exact runSeq_complete .ok 0 0 s seqFuel

end Sys2Proof.Machine

namespace Sys2Proof.Machine

/-! ## What phase `PLAN` grants (R131 to R140, R150, R151) -/

/-- A planned pool passed every check. -/
theorem planTotal_passes {c : Config} {m total : Nat} (h : planTotal c m = some total) :
    m ≠ 0 ∧ rawCount c m ≤ 2 ^ 31 ∧ total = pow2Ceil (rawCount c m) ∧ banksNeeded c total ≤ c.maxLinkDescBanks ∧
      scatterPlanOk c total = true := by
  obtain ⟨-, -, -, hbanks, hscat⟩ := planTotal_some h
  unfold planTotal at h
  split_ifs at h with hm hraw
  dsimp only at h
  split_ifs at h
  cases h
  exact ⟨hm, Nat.le_of_not_lt hraw, rfl, hbanks, hscat⟩

/-- Settles O12: the total is `pow2Ceil` of the raw count, the least power of two above it. -/
theorem plannedTotalIsTheLeastPowerOfTwo : Obligations.PlannedTotalIsTheLeastPowerOfTwo := by
  intro c m total h
  obtain ⟨-, hmax, -⟩ := planTotal_some h
  obtain ⟨hm, -, rfl, hbanks, -⟩ := planTotal_passes h
  exact ⟨Nat.pos_of_ne_zero hm, le_pow2Ceil _, hmax, exists_pow2Ceil_eq _,
    fun k hk => (pow2Ceil_le_two_pow_iff _ k).mpr hk, hbanks⟩

/-- Every bank but the last is full (R136). -/
theorem bankSize_of_succ_lt {c : Config} {total b : Nat} (h : b + 1 < banksNeeded c total) :
    bankSize c total b = c.maxAllocSize := by
  unfold banksNeeded at h
  by_cases hone : oneBank c total
  · rw [if_pos hone] at h
    omega
  · rw [if_neg hone] at h
    have hfull : b < total / descsPerBank c := by split at h <;> omega
    rw [bankSize, if_neg hone, if_pos hfull]

/-- Settles O13, from the facts about single banks. -/
theorem bankPlanCoversThePool : Obligations.BankPlanCoversThePool := by
  intro c total hc ht
  have hl := poolLimits hc
  refine ⟨banksNeeded_pos ht, bankCount_sum c total, fun b hb => ?_, fun b hb => bankSize_of_succ_lt hb⟩
  obtain ⟨hfit, hmax⟩ := bank_fits hl total b
  exact ⟨bankCount_pos hl ht hb, hfit, hmax⟩

/-- The entries of a buffer lie inside it (R76, R139). -/
theorem entry_fits {c : Config} (hl : PoolLimits c) (n : Nat) :
    idleEntrySize * (n % entriesPerScatterBuf c) + idleEntrySize ≤ c.scatterBufSize := by
  have hlt : n % entriesPerScatterBuf c < entriesPerScatterBuf c := Nat.mod_lt _ (entriesPerScatterBuf_pos hl)
  have hmul : entriesPerScatterBuf c * idleEntrySize ≤ c.scatterBufSize := Nat.div_mul_le_self _ _
  unfold idleEntrySize at hmul ⊢
  omega

/-- One buffer less than planned is too few, whatever fits the buffers before (R139). -/
theorem scatterBufs_needed {c : Config} (hl : PoolLimits c) {total : Nat} (ht : 1 ≤ total) :
    (scatterBufsNeeded c total - 1) * entriesPerScatterBuf c < total := by
  have hmul : entriesPerScatterBuf c * idleEntrySize ≤ c.scatterBufSize := Nat.div_mul_le_self _ _
  have hceil : scatterBufsNeeded c total * c.scatterBufSize ≤ idleListMemory total + c.scatterBufSize - 1 :=
    Nat.div_mul_le_self _ _
  obtain ⟨q, hq⟩ := Nat.exists_eq_add_of_lt (scatterBufsNeeded_pos hl ht)
  have hscaled := Nat.mul_le_mul_left q hmul
  have := hl.oneEntry
  rw [hq] at hceil ⊢
  unfold idleListMemory at hceil
  rw [← Nat.mul_assoc] at hscaled
  rw [Nat.zero_add, Nat.add_mul] at hceil
  unfold idleEntrySize at *
  rw [Nat.zero_add, Nat.add_sub_cancel]
  omega

/-- Settles O14: the plan's capacity bounds the buffer of each entry, and its minimality puts the last entry in the last. -/
theorem scatterPlanHoldsEveryEntry : Obligations.ScatterPlanHoldsEveryEntry := by
  intro c m total hc hplan hpath
  have hl := poolLimits hc
  obtain ⟨ht, -, -, -, hscat⟩ := planTotal_some hplan
  have hcap := scatterPlan_holds hscat hpath
  have hbuf (n : Nat) (hn : n < total) : n / entriesPerScatterBuf c < scatterBufsNeeded c total :=
    Nat.div_lt_of_lt_mul (Nat.mul_comm _ _ ▸ hn.trans_le hcap)
  refine ⟨scatterBufsNeeded_pos hl ht, scatterBufsNeeded_le hscat hpath, fun n hn => ⟨hbuf n hn, entry_fits hl n⟩, ?_⟩
  have hlast : scatterBufsNeeded c total - 1 ≤ (total - 1) / entriesPerScatterBuf c :=
    (Nat.le_div_iff_mul_le (entriesPerScatterBuf_pos hl)).mpr (Nat.le_sub_one_of_lt (scatterBufs_needed hl ht))
  have := hbuf (total - 1) (by omega)
  omega

/-! ### What phase `PLAN` turns away (R131, R137, R139, R140) -/

theorem scatterPlanOk_scatter {c : Config} {total : Nat} (h : c.maxAllocSize < 8 * total) :
    scatterPlanOk c total = true ↔ scatterBufsNeeded c total ≤ c.maxScatterBufs ∧
      total ≤ scatterBufsNeeded c total * entriesPerScatterBuf c := by
  have hpath : idlePathFor c total = .scatter := if_neg (Nat.not_le.mpr h)
  rw [scatterPlanOk, hpath, Bool.and_eq_true, decide_eq_true_eq, decide_eq_true_eq]

theorem exec_linkPoolSetup_start {s : State} (hp : s.seq.pos = .start) :
    exec .linkPoolSetup s = runSeq seqFuel (beginLinkPoolSetup s) := by
  rw [exec_eq, runCommand_start hp]
  rfl

/-- A pool that exists, or no plan, ends the command at once (R131, R140). -/
theorem beginLinkPoolSetup_refused {s : State} (h : s.pool.valid = true ∨ planTotal s.cfg (scalar s) = none) :
    beginLinkPoolSetup s = complete .configErr 0 0 s := by
  unfold beginLinkPoolSetup
  split
  · rfl
  · next hv => rw [h.resolve_left hv]; rfl

/-- Settles O24: each of the requests has a pool or no plan. -/
theorem poolSetupConfigurationErrors : Obligations.PoolSetupConfigurationErrors := by
  intro s m hacc hbad
  obtain ⟨hp, -, -, hm⟩ := hacc
  have hrefused : s.pool.valid = true ∨ planTotal s.cfg (scalar s) = none := by
    refine hbad.imp id fun hbad => Option.eq_none_iff_forall_ne_some.mpr fun total hplan => ?_
    rw [hm] at hplan
    obtain ⟨hm0, hraw, rfl, hbanks, hscat⟩ := planTotal_passes hplan
    obtain hbad | hbad | hbad | ⟨hsize, hbad⟩ := hbad
    · exact hm0 hbad
    · exact absurd hraw (Nat.not_le.mpr hbad)
    · exact absurd hbanks (Nat.not_le.mpr hbad)
    · obtain ⟨hbufs, hcap⟩ := (scatterPlanOk_scatter hsize).mp hscat
      exact hbad.elim (Nat.not_lt.mpr hbufs) (Nat.not_lt.mpr hcap)
  rw [exec_linkPoolSetup_start hp, beginLinkPoolSetup_refused hrefused, runSeq_complete]
  rfl

end Sys2Proof.Machine

namespace Sys2Proof.Machine

/-! ## Runs of the pool commands: what they leave alone, and why they end (R25, R92, R297) -/

/-- What no step of a pool command writes: the dispatcher's half, and the host's registers and last read. -/
structure Bystanders where
  service : ServiceView
  arg0 : Word
  svcBudget : Word
  pollPeriod : Word
  hostData : Word

def State.bystanders (s : State) : Bystanders := ⟨s.serviceView, s.arg0, s.svcBudget, s.pollPeriod, s.hostData⟩

theorem eq_of_bystanders {s t : State} (h : t.bystanders = s.bystanders) :
    t = { s with
      err := t.err, res0 := t.res0, res1 := t.res1, seq := t.seq, rings := t.rings, producer := t.producer,
      banks := t.banks, scats := t.scats, pool := t.pool, live := t.live, engReg := t.engReg, engIdle := t.engIdle,
      hist := t.hist, mem := t.mem, env := t.env } := by
  cases s
  cases t
  simp only [State.bystanders, State.serviceView, Bystanders.mk.injEq, ServiceView.mk.injEq] at h
  obtain ⟨⟨rfl, rfl, rfl, rfl, rfl, rfl, rfl, rfl, rfl⟩, rfl, rfl, rfl, rfl⟩ := h
  rfl

theorem cfg_of_bystanders {s t : State} (h : t.bystanders = s.bystanders) : t.cfg = s.cfg :=
  congrArg (fun b => b.service.cfg) h

/-- Every ring but the idle list's is as it was. -/
def SameOtherRings (s t : State) : Prop := ∀ k < 16, ∀ i < 8, ¬(k = idleClass ∧ i = 0) → t.ring k i = s.ring k i

theorem SameOtherRings.refl (s : State) : SameOtherRings s s := fun _ _ _ _ _ => rfl

theorem SameOtherRings.of_rings {s t u : State} (h : SameOtherRings s t) (e : u.rings = t.rings) : SameOtherRings s u :=
  fun k hk i hi hne => by
    rw [← h k hk i hi hne, State.ring, e]
    rfl

theorem SameOtherRings.setIdle {s t u : State} (h : SameOtherRings s t) {x : RingRec}
    (e : u.rings = (setRing idleClass 0 x t).rings) : SameOtherRings s u := fun k hk i hi hne => by
  rw [← h k hk i hi hne, ← setRing_ring_other hk hi (fun e => hne ⟨e.1.symm, e.2.symm⟩) x t, State.ring, e]
  rfl

/-- If each step before the stop keeps `P` and lowers the measure, a run with that much fuel stops. -/
theorem runSeq_ends (P : State → Prop) (measure : State → Nat)
    (hP : ∀ s, P s → seqStopped s = false → ∃ t, seqStep s = .next t ∧ P t ∧ measure t < measure s) :
    ∀ n s, P s → measure s ≤ n → ∃ t, runSeq n s = .next t ∧ P t ∧ seqStopped t = true := by
  intro n
  induction n with
  | zero =>
    intro s hs hn
    refine ⟨s, rfl, hs, Bool.eq_true_of_not_eq_false fun hgo => ?_⟩
    obtain ⟨t, -, -, hlt⟩ := hP s hs hgo
    omega
  | succ n ih =>
    intro s hs hn
    cases hstop : seqStopped s with
    | true => exact ⟨s, runSeq_of_stopped hstop _, hs, hstop⟩
    | false =>
      obtain ⟨u, hu, pu, hlt⟩ := hP s hs hstop
      rw [runSeq_step hstop, hu, andThen_next_eq]
      exact ih u pu (by omega)

/-- The positions of the ring and pool commands are no holds. -/
theorem not_stopped_of_ofMemory {s : State} (hp : s.seq.pos.ofMemory = true) :
    seqStopped s = false ∧ seqStep s = posStep s := by
  unfold seqStopped seqStep seqHeld
  cases hq : s.seq.pos <;> rw [hq] at hp
  case idle | start | registerSource | timerInit | timerStart | freeSource | detachWait | timerStop | timerFree
    | serviceClaim | serving => cases hp
  all_goals exact ⟨rfl, rfl⟩

theorem Pos.ofMemory_of_ofCleanup {p : Pos} (h : p.ofCleanup = true) : p.ofMemory = true := by
  cases p <;> simp [Pos.ofCleanup, Pos.ofMemory] at h ⊢

/-! ## `PoolUnwind` (R155) -/

/-- The region of scatter buffer `n` (R44). -/
def State.scatRegion (s : State) (n : Nat) : Alloc :=
  ⟨(s.scat n).va, (s.scat n).pa, BitVec.ofNat 32 s.cfg.scatterBufSize⟩

/-- The region of bank `b` (R39). -/
def State.bankRegion (s : State) (b : Nat) : Alloc := ⟨(s.bank b).rawVa, (s.bank b).rawPa, (s.bank b).size⟩

/-- The record of a free by the sequencer (R212, R229). -/
def freeEvent (a : Alloc) : Event := ⟨.seq, .freeCoherent a⟩

/-- What `PoolUnwind` still does about the idle-list ring; `gap` says whether the engine knows already. -/
def ringUnwindEvents (gap : Option (Nat × Nat)) (s : State) : List Event :=
  if (s.ring idleClass 0).registered then
    (if gap = some (idleClass, 0) then [] else [⟨.seq, .ringUnregister (s.ring idleClass 0).hnd⟩]) ++
      [freeEvent (s.ring idleClass 0).region]
  else []

/-- What `PoolUnwind` still does: the ring, then the scatter buffers and the banks from the last to the first (R155). -/
def unwindEvents (gap : Option (Nat × Nat)) (s : State) : List Event :=
  ringUnwindEvents gap s ++ ((List.range s.pool.numScatterBufs).reverse.map fun n => freeEvent (s.scatRegion n)) ++
    ((List.range s.pool.numBanks).reverse.map fun b => freeEvent (s.bankRegion b))

/-- `s` with its last scatter buffer, number `n`, given back. -/
def dropScat (n : Nat) (s : State) : State :=
  setScat n {} { afterFree (s.scatRegion n) s with pool := { s.pool with numScatterBufs := n } }

/-- `s` with its last bank, number `n`, given back. -/
def dropBank (n : Nat) (s : State) : State :=
  setBank n {} { afterFree (s.bankRegion n) s with pool := { s.pool with numBanks := n } }

/-- `s` with the region of the idle-list ring given back and its records cleared. -/
def dropIdleRing (s : State) : State :=
  { setRing idleClass 0 {} (afterFree (s.ring idleClass 0).region s) with producer := {} }

theorem dropIdleRing_noRing (s : State) : ((dropIdleRing s).ring idleClass 0).registered = false :=
  congrArg RingRec.registered (setRing_ring_same (by decide) (by decide) {} (afterFree (s.ring idleClass 0).region s))

/-- A step of `PoolUnwind` (R155). -/
inductive UnwindStep (s : State) : State → Prop
  | unregister (hp : s.seq.pos = .ringUnregister idleClass 0) (hr : (s.ring idleClass 0).registered = true) :
    UnwindStep s (goto (.ringFree idleClass 0) (afterUnregister (s.ring idleClass 0).hnd s))
  | freeRing (hp : s.seq.pos = .ringFree idleClass 0) (hr : (s.ring idleClass 0).registered = true) :
    UnwindStep s (unwindMemory (dropIdleRing s))
  | freeScat {n : Nat} (hp : s.seq.pos = .unwindScatter) (hn : s.pool.numScatterBufs = n + 1)
    (hno : (s.ring idleClass 0).registered = false) : UnwindStep s (unwindMemory (dropScat n s))
  | freeBank {n : Nat} (hp : s.seq.pos = .unwindBank) (hn : s.pool.numBanks = n + 1)
    (hscat : s.pool.numScatterBufs = 0) (hno : (s.ring idleClass 0).registered = false) :
    UnwindStep s (unwindMemory (dropBank n s))

theorem ringCleanupReturn_pool {s : State} (hop : poolOp s = true) : ringCleanupReturn s = unwindMemory s := by
  unfold ringCleanupReturn
  split
  · next ho =>
    rw [poolOp, ho] at hop
    cases hop
  · rfl

theorem PoolCmd.poolOp {s : State} (h : PoolCmd s) : poolOp s = true := by
  unfold Machine.poolOp
  obtain ⟨hop, -⟩ | hop := h <;> rw [hop]

/-- A pool command stands at a step of `RingCleanup` for the idle-list ring only. -/
theorem Sound.unwindsRing {k i : Nat} {s : State} (h : Sound s) (hop : poolOp s = true)
    (hp : s.seq.pos = .ringUnregister k i ∨ s.seq.pos = .ringFree k i) :
    k = idleClass ∧ i = 0 ∧ (s.ring k i).registered = true := by
  obtain ⟨⟨-, hk, hi⟩ | ⟨ho, -⟩, hr⟩ := (placeOk_cleanJob_iff hp).mp h.place
  · exact ⟨hk, hi, hr⟩
  · unfold poolOp at hop
    rw [ho] at hop
    cases hop

/-- What `CleanupAt` says where memory is being freed. -/
theorem Sound.unwindsMemory {s : State} (h : Sound s) (hp : s.seq.pos = .unwindScatter ∨ s.seq.pos = .unwindBank) :
    (s.ring idleClass 0).registered = false ∧
      (s.seq.pos = .unwindScatter → 0 < s.pool.numScatterBufs) ∧
      (s.seq.pos = .unwindBank → s.pool.numScatterBufs = 0 ∧ 0 < s.pool.numBanks) := by
  obtain ⟨-, hat⟩ := h.place.unwinding hp
  unfold CleanupAt at hat
  obtain hp | hp := hp <;> rw [hp] at hat ⊢
  · obtain ⟨⟨hring, -⟩, hn⟩ := hat
    exact ⟨congrArg RingRec.registered hring, fun _ => hn, nofun⟩
  · obtain ⟨⟨hring, -⟩, hn⟩ := hat
    exact ⟨congrArg RingRec.registered hring, nofun, fun _ => hn⟩

/-- From a sound machine every step of `PoolUnwind` is one of the four. -/
theorem posStep_unwinds {s : State} (h : Sound s) (hop : poolOp s = true) (hp : s.seq.pos.ofCleanup = true) :
    ∃ t, posStep s = .next t ∧ UnwindStep s t := by
  cases hq : s.seq.pos <;> rw [hq] at hp
  case ringUnregister k i =>
    obtain ⟨rfl, rfl, hr⟩ := h.unwindsRing hop (.inl hq)
    have hb := h.books
    rw [hq] at hb
    refine ⟨_, ?_, .unregister hq hr⟩
    rw [posStep, hq]
    show andThen _ _ = _
    rw [engRingUnregister_eq_afterUnregister (hb.handle_registered hr), andThen_next_eq]
  case ringFree k i =>
    obtain ⟨rfl, rfl, hr⟩ := h.unwindsRing hop (.inr hq)
    refine ⟨_, ?_, .freeRing hq hr⟩
    rw [posStep, hq]
    show andThen _ _ = _
    rw [hostFreeCoherent_eq_afterFree (h.books.ring_live hr), andThen_next_eq, clearProducer_idle]
    exact congrArg Host.Outcome.next (ringCleanupReturn_pool hop)
  case unwindScatter =>
    obtain ⟨hno, hn, -⟩ := h.unwindsMemory (.inl hq)
    obtain ⟨n, hn⟩ := Nat.exists_eq_add_of_lt (hn hq)
    rw [Nat.zero_add] at hn
    refine ⟨_, ?_, .freeScat hq hn hno⟩
    have hlive : s.scatRegion n ∈ s.live := h.books.scat_live (by omega)
    rw [posStep, hq]
    show unwindScatterStep s = _
    rw [unwindScatterStep, hn]
    show andThen (hostFreeCoherent (s.scatRegion n) s) _ = _
    rw [hostFreeCoherent_eq_afterFree hlive]
    rfl
  case unwindBank =>
    obtain ⟨hno, -, hn⟩ := h.unwindsMemory (.inr hq)
    obtain ⟨hscat, hn⟩ := hn hq
    obtain ⟨n, hn⟩ := Nat.exists_eq_add_of_lt hn
    rw [Nat.zero_add] at hn
    refine ⟨_, ?_, .freeBank hq hn hscat hno⟩
    have hlive : s.bankRegion n ∈ s.live := h.books.bank_live (by omega)
    rw [posStep, hq]
    show unwindBankStep s = _
    rw [unwindBankStep, hn]
    show andThen (hostFreeCoherent (s.bankRegion n) s) _ = _
    rw [hostFreeCoherent_eq_afterFree hlive]
    rfl
  all_goals cases hp

/-- How many steps of `PoolUnwind` are still to come. -/
def unwindLength (s : State) : Nat :=
  match s.seq.pos with
  | .ringUnregister _ _ => s.pool.numScatterBufs + s.pool.numBanks + 2
  | .ringFree _ _ => s.pool.numScatterBufs + s.pool.numBanks + 1
  | .unwindScatter | .unwindBank => s.pool.numScatterBufs + s.pool.numBanks
  | _ => 0

theorem unwindLength_unwindMemory (s : State) :
    unwindLength (unwindMemory s) ≤ s.pool.numScatterBufs + s.pool.numBanks := by
  unfold unwindMemory
  split_ifs
  · exact le_rfl
  · exact le_rfl
  · exact Nat.zero_le _

theorem UnwindStep.length_lt {s t : State} (h : UnwindStep s t) : unwindLength t < unwindLength s := by
  have hmem := unwindLength_unwindMemory
  cases h with
  | unregister hp => simp only [unwindLength, hp]; exact Nat.lt_succ_self _
  | freeRing hp => simp only [unwindLength, hp]; exact Nat.lt_succ_of_le (hmem _)
  | freeScat hp hn =>
    refine (hmem _).trans_lt ?_
    simp only [unwindLength, hp, hn]
    exact Nat.add_lt_add_right (Nat.lt_succ_self _) _
  | freeBank hp hn =>
    refine (hmem _).trans_lt ?_
    simp only [unwindLength, hp, hn]
    exact Nat.lt_succ_self _

/-! ### What an unwinding has done -/

/-- `ENG_IDLE` at the end of `PoolUnwind` (R162; log 20). -/
def idleAfterUnwind (u : State) : Bool :=
  match u.seq.op with
  | .linkPoolCleanup => false
  | _ => u.engIdle

/-- Where the unwinding of `u` stands in `s`: at one of its positions, or at the end of the command with the code `c`. -/
def UnwindStage (u : State) (c : Err) (s : State) : Prop :=
  s.seq.pos.ofCleanup = true ∧ s.seq.op = u.seq.op ∧ s.seq.failure = c ∧ s.engIdle = u.engIdle ∨
    s.seq = {} ∧ s.err = c ∧ s.res0 = 0 ∧ s.res1 = 0 ∧ s.pool = {} ∧ s.engIdle = idleAfterUnwind u

/-- `s` is reached from `u` by steps of `PoolUnwind`, which raises `c` at its end. -/
structure Unwound (u : State) (c : Err) (s : State) : Prop where
  sound : Sound s
  bystanders : s.bystanders = u.bystanders
  mem : s.mem = u.mem
  env : s.env = u.env
  rings : SameOtherRings u s
  events : s.hist ++ unwindEvents s.seq.pos.gap s = u.hist ++ unwindEvents none u
  stage : UnwindStage u c s

/-- The same of a state that has not yet chosen the next position. -/
structure Unwound.Between (u : State) (c : Err) (v : State) : Prop where
  bystanders : v.bystanders = u.bystanders
  mem : v.mem = u.mem
  env : v.env = u.env
  rings : SameOtherRings u v
  noRing : (v.ring idleClass 0).registered = false
  events : v.hist ++ unwindEvents none v = u.hist ++ unwindEvents none u
  op : v.seq.op = u.seq.op
  failure : v.seq.failure = c
  engIdle : v.engIdle = u.engIdle

theorem Unwound.Between.unwindMemory {u v : State} {c : Err} (h : Unwound.Between u c v)
    (hs : Sound (unwindMemory v)) : Unwound u c (unwindMemory v) := by
  obtain ⟨hby, hmem, henv, hrings, hno, hevents, hop, hfail, hidle⟩ := h
  unfold Machine.unwindMemory at hs ⊢
  split_ifs at hs ⊢ with hscat hbank
  · exact ⟨hs, hby, hmem, henv, hrings, hevents, .inl ⟨rfl, hop, hfail, hidle⟩⟩
  · exact ⟨hs, hby, hmem, henv, hrings, hevents, .inl ⟨rfl, hop, hfail, hidle⟩⟩
  · have hnone : unwindEvents none v = [] := by
      simp [unwindEvents, ringUnwindEvents, hno, Nat.eq_zero_of_not_pos hscat, Nat.eq_zero_of_not_pos hbank]
    have hend : unwindEvents none (finishUnwind v) = [] := by
      have hno' : ((finishUnwind v).ring idleClass 0).registered = false := hno
      have hpool : (finishUnwind v).pool = {} := rfl
      simp [unwindEvents, ringUnwindEvents, hno', hpool]
    refine ⟨hs, hby, hmem, henv, hrings, ?_, .inr ⟨rfl, hfail, rfl, rfl, rfl, ?_⟩⟩
    · show v.hist ++ unwindEvents none (finishUnwind v) = _
      rw [hend, ← hevents, hnone]
    · show (match v.seq.op with
        | .linkPoolCleanup => false
        | _ => v.engIdle) = _
      rw [hop, hidle]
      rfl

/-- `s` with the code that the unwinding is going to raise (R155). -/
def failing (e : Err) (s : State) : State := { s with seq := { s.seq with failure := e } }

theorem startUnwind_of_ring {e : Err} {s : State} (h : (s.ring idleClass 0).registered = true) :
    startUnwind e s = goto (.ringUnregister idleClass 0) (failing e s) := if_pos h

theorem startUnwind_of_noRing {e : Err} {s : State} (h : (s.ring idleClass 0).registered = false) :
    startUnwind e s = unwindMemory (failing e s) := if_neg (by rw [h]; decide)

/-- The first step of `PoolUnwind` (R155). -/
theorem unwound_startUnwind {u : State} {c : Err} (hs : Sound (startUnwind c u)) : Unwound u c (startUnwind c u) := by
  cases hr : (u.ring idleClass 0).registered with
  | true =>
    rw [startUnwind_of_ring hr] at hs ⊢
    exact ⟨hs, rfl, rfl, rfl, .refl u, rfl, .inl ⟨rfl, rfl, rfl, rfl⟩⟩
  | false =>
    rw [startUnwind_of_noRing hr] at hs ⊢
    exact Unwound.Between.unwindMemory ⟨rfl, rfl, rfl, .refl u, hr, rfl, rfl, rfl, rfl⟩ hs

theorem unwindEvents_unregister {s : State} (hr : (s.ring idleClass 0).registered = true) :
    unwindEvents none s =
      ⟨.seq, .ringUnregister (s.ring idleClass 0).hnd⟩ :: unwindEvents (some (idleClass, 0)) s := by
  simp [unwindEvents, ringUnwindEvents, hr]

theorem unwindEvents_dropIdleRing {s : State} (hr : (s.ring idleClass 0).registered = true) :
    unwindEvents (some (idleClass, 0)) s =
      freeEvent (s.ring idleClass 0).region :: unwindEvents none (dropIdleRing s) := by
  simp only [unwindEvents, ringUnwindEvents, hr, dropIdleRing_noRing s]
  rfl

theorem unwindEvents_dropScat {s : State} {n : Nat} (hno : (s.ring idleClass 0).registered = false)
    (hn : s.pool.numScatterBufs = n + 1) :
    unwindEvents none s = freeEvent (s.scatRegion n) :: unwindEvents none (dropScat n s) := by
  have hno' : ((dropScat n s).ring idleClass 0).registered = false := hno
  have hkept : ((List.range n).reverse.map fun m => freeEvent ((dropScat n s).scatRegion m)) =
      (List.range n).reverse.map fun m => freeEvent (s.scatRegion m) := List.map_congr_left fun m hm => by
    have hne : n ≠ m := by
      rintro rfl
      simp at hm
    have hscat : (dropScat n s).scat m = s.scat m := setScat_scat_other hne {} _
    rw [State.scatRegion, hscat]
    rfl
  have hnow : (dropScat n s).pool.numScatterBufs = n := rfl
  simp only [unwindEvents, ringUnwindEvents, hno, hno', hn, hnow, hkept, List.range_succ, List.reverse_append]
  rfl

theorem unwindEvents_dropBank {s : State} {n : Nat} (hno : (s.ring idleClass 0).registered = false)
    (hscat : s.pool.numScatterBufs = 0) (hn : s.pool.numBanks = n + 1) :
    unwindEvents none s = freeEvent (s.bankRegion n) :: unwindEvents none (dropBank n s) := by
  have hno' : ((dropBank n s).ring idleClass 0).registered = false := hno
  have hscat' : (dropBank n s).pool.numScatterBufs = 0 := hscat
  have hkept : ((List.range n).reverse.map fun b => freeEvent ((dropBank n s).bankRegion b)) =
      (List.range n).reverse.map fun b => freeEvent (s.bankRegion b) := List.map_congr_left fun b hb => by
    have hne : n ≠ b := by
      rintro rfl
      simp at hb
    have hbank : (dropBank n s).bank b = s.bank b := setBank_bank_other hne {} _
    rw [State.bankRegion, hbank]
    rfl
  have hnow : (dropBank n s).pool.numBanks = n := rfl
  simp only [unwindEvents, ringUnwindEvents, hno, hno', hscat, hscat', hn, hnow, hkept, List.range_succ,
    List.reverse_append]
  rfl

theorem Unwound.step {u s t : State} {c : Err} (h : Unwound u c s) (hp : s.seq.pos.ofCleanup = true) (hstep : UnwindStep s t)
    (ht : Sound t) : Unwound u c t := by
  obtain ⟨-, hby, hmem, henv, hrings, hevents, hstage⟩ := h
  obtain ⟨-, hop, hfail, hidle⟩ : s.seq.pos.ofCleanup = true ∧ s.seq.op = u.seq.op ∧ s.seq.failure = c ∧
      s.engIdle = u.engIdle := by
    obtain hstage | ⟨hq, -⟩ := hstage
    · exact hstage
    · rw [hq] at hp
      cases hp
  cases hstep with
  | unregister hp hr =>
    refine ⟨ht, hby, hmem, henv, hrings, ?_, .inl ⟨rfl, hop, hfail, hidle⟩⟩
    rw [hp] at hevents
    rw [← hevents]
    show (s.hist ++ [_]) ++ unwindEvents (some (idleClass, 0)) s = s.hist ++ unwindEvents none s
    rw [unwindEvents_unregister hr, List.append_assoc, List.singleton_append]
  | freeRing hp hr =>
    refine Unwound.Between.unwindMemory ⟨hby, hmem, henv, hrings.setIdle rfl, dropIdleRing_noRing s, ?_, hop, hfail, hidle⟩ ht
    rw [hp] at hevents
    rw [← hevents]
    show (s.hist ++ [_]) ++ _ = s.hist ++ unwindEvents (some (idleClass, 0)) s
    rw [unwindEvents_dropIdleRing hr, List.append_assoc, List.singleton_append]
    rfl
  | @freeScat n hp hn hno =>
    refine Unwound.Between.unwindMemory ⟨hby, hmem, henv, hrings, hno, ?_, hop, hfail, hidle⟩ ht
    rw [hp] at hevents
    rw [← hevents]
    show (s.hist ++ [_]) ++ _ = s.hist ++ unwindEvents none s
    rw [unwindEvents_dropScat hno hn, List.append_assoc, List.singleton_append]
    rfl
  | @freeBank n hp hn hscat hno =>
    refine Unwound.Between.unwindMemory ⟨hby, hmem, henv, hrings, hno, ?_, hop, hfail, hidle⟩ ht
    rw [hp] at hevents
    rw [← hevents]
    show (s.hist ++ [_]) ++ _ = s.hist ++ unwindEvents none s
    rw [unwindEvents_dropBank hno hscat hn, List.append_assoc, List.singleton_append]
    rfl

/-- An unwinding under way takes a step towards its end. -/
theorem Unwound.advances {u s : State} {c : Err} (hu : poolOp u = true) (h : Unwound u c s)
    (hp : s.seq.pos.ofCleanup = true) :
    ∃ t, seqStep s = .next t ∧ Unwound u c t ∧ unwindLength t < unwindLength s := by
  have hop : poolOp s = true := by
    obtain ⟨-, hop, -⟩ | ⟨hq, -⟩ := h.stage
    · rw [poolOp, hop]
      exact hu
    · rw [hq] at hp
      cases hp
  obtain ⟨t, ht, hstep⟩ := posStep_unwinds h.sound hop hp
  have hseq : seqStep s = .next t := (not_stopped_of_ofMemory (Pos.ofMemory_of_ofCleanup hp)).2.trans ht
  exact ⟨t, hseq, h.step hp hstep (seqStep_sound h.sound hseq), hstep.length_lt⟩

/-! ### `LINK_POOL_CLEANUP` (R160 to R162) -/

/-- At its end an unwinding has freed everything of the pool. -/
structure Unwound.Ended (u : State) (c : Err) (t : State) : Prop where
  sound : Sound t
  bystanders : t.bystanders = u.bystanders
  mem : t.mem = u.mem
  env : t.env = u.env
  rings : SameOtherRings u t
  hist : t.hist = u.hist ++ unwindEvents none u
  seq : t.seq = {}
  err : t.err = c
  res0 : t.res0 = 0
  res1 : t.res1 = 0
  pool : t.pool = {}
  engIdle : t.engIdle = idleAfterUnwind u

/-- At rest without a pool, no place of a table holds anything of one. -/
theorem Sound.no_pool {t : State} (h : Sound t) (hq : t.seq = {}) (hpool : t.pool = {}) :
    Books [] none t ∧ NoIdleRing t ∧ (∀ b < 256, t.bank b = {}) ∧ ∀ n < 256, t.scat n = {} := by
  obtain ⟨hb, -, hplace⟩ := h
  rw [hq] at hb
  have hrest := hplace.rest (by unfold underWay; rw [hq])
  unfold PoolAtRest at hrest
  rw [hpool] at hrest
  obtain ⟨-, -, hbanks, hscats⟩ := hb.tables
  rw [hpool] at hbanks hscats
  exact ⟨hb, ((if_neg Bool.false_ne_true).mp hrest).2, fun b h256 => (if_neg (Nat.not_lt_zero b)).mp (hbanks b h256),
    fun n h256 => (if_neg (Nat.not_lt_zero n)).mp (hscats n h256)⟩

theorem Unwound.ended {u t : State} {c : Err} (h : Unwound u c t) (hstop : seqStopped t = true) : Unwound.Ended u c t := by
  obtain ⟨hs, hby, hmem, henv, hrings, hevents, hstage⟩ := h
  obtain ⟨hp, -⟩ | ⟨hq, herr, h0, h1, hpool, hidle⟩ := hstage
  · rw [(not_stopped_of_ofMemory (Pos.ofMemory_of_ofCleanup hp)).1] at hstop
    cases hstop
  · obtain ⟨-, ⟨hring, -⟩, -⟩ := hs.no_pool hq hpool
    have hnone : unwindEvents t.seq.pos.gap t = [] := by
      simp [unwindEvents, ringUnwindEvents, hring, hpool]
    rw [hnone, List.append_nil] at hevents
    exact ⟨hs, hby, hmem, henv, hrings, hevents, hq, herr, h0, h1, hpool, hidle⟩

/-- A run of `PoolUnwind` with fuel for its steps reaches its end. -/
theorem Unwound.runs {u s : State} {c : Err} (hu : poolOp u = true) (h : Unwound u c s) {n : Nat}
    (hn : unwindLength s ≤ n) : ∃ t, runSeq n s = .next t ∧ Unwound.Ended u c t := by
  obtain ⟨t, ht, hend, hstop⟩ := runSeq_ends (Unwound u c) unwindLength (fun v hv hgo => by
    obtain ⟨hp, -⟩ | ⟨hq, -⟩ := hv.stage
    · exact hv.advances hu hp
    · rw [seqStopped, hq] at hgo
      cases hgo) n s h hn
  exact ⟨t, ht, hend.ended hstop⟩

/-- Fewer than 515 steps unwind a pool. -/
theorem Sound.unwindLength_le {s : State} (h : Sound s) : unwindLength s ≤ 514 := by
  obtain ⟨hbanks, hbufs, -⟩ := h.books.tables
  have hl := poolLimits h.books.valid
  have := hl.banks
  have := hl.bufs
  unfold unwindLength
  split <;> omega

/-- Settles O28: the command is one unwinding from the state that it finds, and `Unwound.Ended` says what that leaves. -/
theorem poolCleanupFreesEverything : Obligations.PoolCleanupFreesEverything := by
  intro s n hs hacc
  obtain ⟨hp, -⟩ := hacc
  have hbegun := ((consistent_iff s).mp hs).2.begun hp
  have hsound : Sound (startUnwind .ok (setOp .linkPoolCleanup s)) := beginLinkPoolCleanup_sound hbegun
  obtain ⟨t, hrun, hend⟩ := (unwound_startUnwind hsound).runs rfl
    (hsound.unwindLength_le.trans (show 514 ≤ seqFuel by decide))
  obtain ⟨hb, ⟨hring, hprod⟩, hbanks, hscats⟩ := hend.sound.no_pool hend.seq hend.pool
  have hexec : exec .linkPoolCleanup s = .next t := by
    rw [exec_eq, runCommand_start hp]
    exact hrun
  refine ⟨t, hexec, ?_, hring, hend.rings, hbanks, hscats, ?_, ?_⟩
  · refine (eq_of_bystanders (s := s) hend.bystanders).trans ?_
    rw [hend.err, hend.res0, hend.res1, hend.seq, hend.pool, hend.engIdle, hend.mem, hend.env, hend.hist, hprod]
    simp only [unwindEvents, List.append_assoc]
    rfl
  · have hregions := hb.regions
    simp only [recordedRegions, hend.pool, List.range_zero, List.map_nil, List.append_nil] at hregions
    exact hregions
  · have hhandles := hb.handles
    have hrec : recordedHandle none t =
        fun p => if (t.ring p.1 p.2).registered then some (t.ring p.1 p.2).hnd else none := by
      funext p
      simp [recordedHandle]
    rwa [hrec] at hhandles

end Sys2Proof.Machine

namespace Sys2Proof.Machine

/-! ## The steps of `LINK_POOL_SETUP` (R130, R141 to R153)

`SetupStep s op t`: from the sound machine `s` the command performs the port operation `op` and goes on to `t`. -/

/-- The positions of a setup that is not unwinding. -/
def Pos.ofBuild : Pos → Bool
  | .ringAlloc _ | .ringRegister _ _ | .ringReject _ => true
  | p => p.ofSetup

theorem Pos.ofMemory_of_ofBuild {p : Pos} (h : p.ofBuild = true) : p.ofMemory = true := by
  cases p <;> simp [Pos.ofBuild, Pos.ofSetup, Pos.ofMemory] at h ⊢

/-- The request for the idle-list ring (R143). -/
def idleReq (s : State) : RingReq := ⟨idleClass, 0, 0, poolTotal s⟩

/-- What the engine is told about the idle-list ring in the region `a` (R114, R217). -/
def idleParams (a : Alloc) (s : State) : RingParams := ringParams (ringRecord s.cfg (idleReq s) a 0)

/-- The size that the allocation before which the sequencer stands asks for (R112, R141, R148). -/
def requestSize (s : State) : Nat :=
  match s.seq.pos with
  | .bankAlloc b => bankSize s.cfg (poolTotal s) b
  | .ringAlloc r => ringSize s.cfg r.cls r.entries
  | _ => s.cfg.scatterBufSize

/-- The positions before an allocation of the setup. -/
def Pos.allocates : Pos → Bool
  | .bankAlloc _ | .ringAlloc _ | .scatterAlloc _ => true
  | _ => false

/-- The host or the engine says no, and the setup unwinds (R154). A rejected registration is not among these, because the
ring's region is freed first. -/
inductive Refused (s : State) : PortOp → Env → Prop
  | null {e : Env} (hp : s.seq.pos.allocates = true)
    (h : hostAllocCoherent (requestSize s) s =
      (none, record .seq (.allocCoherent (requestSize s) none) { s with env := e })) :
    Refused s (.allocCoherent (requestSize s) none) e
  | ring {hnd : Handle} {e : Env} (hp : s.seq.pos = .publishRing) (h : (drawPublish s).1 = false) :
    Refused s (.publishRing hnd false) e
  | scatter {list : ScatterList} {e : Env} (hp : s.seq.pos = .publishScatter) (h : (drawPublish s).1 = false) :
    Refused s (.publishScatter list false) e

/-- Where the setup goes on after bank `b` (R130, R138). -/
def afterBankPos (c : Config) (total b : Nat) : Pos :=
  if b + 1 < banksNeeded c total then .bankAlloc (b + 1)
  else
    match idlePathFor c total with
    | .inRing => .ringAlloc ⟨idleClass, 0, 0, total⟩
    | .scatter => .scatterAlloc 0

/-- Where the setup goes on after scatter buffer `n` (R148). -/
def afterScatPos (c : Config) (total n : Nat) : Pos :=
  if n + 1 < scatterBufsNeeded c total then .scatterAlloc (n + 1) else .scatterLink 0 0

/-- `s` with bank `b` of the plan recorded in the region `a` (R141, R142). -/
def addBank (b : Nat) (a : Alloc) (s : State) : State :=
  setBank b (bankRecord s.cfg a (bankCount s.cfg (poolTotal s) b)) { s with pool := { s.pool with numBanks := b + 1 } }

/-- `s` with scatter buffer `n` recorded in the region `a` (R148). -/
def addScat (n : Nat) (a : Alloc) (s : State) : State :=
  setScat n ⟨a.va, a.pa⟩ { s with pool := { s.pool with numScatterBufs := n + 1 } }

/-- `s` with the idle-list ring recorded in the region `a` under the handle `hnd` (R110, R143). -/
def addIdleRing (a : Alloc) (hnd : Handle) (s : State) : State :=
  { setRing idleClass 0 (ringRecord s.cfg (idleReq s) a hnd) s with producer := {} }

/-- `s` after the entry for `desc` of `bank` is written at `slot` (R77, R224). -/
def afterLink (slot : PAddr) (bank : Nat) (desc : PAddr) (s : State) : State :=
  { record .seq (.setLinkAddr slot bank desc) s with
    mem := Memory.writeLe s.mem slot.toNat idleEntrySize (entryImage bank desc) }

/-- `s` with the pool's record `p`, after the engine took the idle list (R147, R152). -/
def afterPublish (op : PortOp) (e : Env) (p : Pool) (s : State) : State :=
  { record .seq op { s with env := e } with engIdle := true, pool := p }

/-- `s` after an operation on the bracket, which leaves the producer state `p` (R219 to R221). -/
def afterBracket (op : PortOp) (p : Producer) (s : State) : State := { record .seq op s with producer := p }

inductive SetupStep (s : State) : PortOp → State → Prop
  | refused {op : PortOp} {e : Env} (h : Refused s op e) :
    SetupStep s op (startUnwind (refusalCode op) (record .seq op { s with env := e }))
  | bank {b : Nat} {a : Alloc} {e : Env} (hp : s.seq.pos = .bankAlloc b)
    (h : hostAllocCoherent (bankSize s.cfg (poolTotal s) b) s =
      (some a, afterAlloc (bankSize s.cfg (poolTotal s) b) a e s)) :
    SetupStep s (.allocCoherent (bankSize s.cfg (poolTotal s) b) (some (a.va, a.pa)))
      (goto (afterBankPos s.cfg (poolTotal s) b) (addBank b a (afterAlloc (bankSize s.cfg (poolTotal s) b) a e s)))
  | tooLarge {b : Nat} {a : Alloc} {e : Env} (hp : s.seq.pos = .bankAlloc b)
    (h : hostAllocCoherent (bankSize s.cfg (poolTotal s) b) s =
      (some a, afterAlloc (bankSize s.cfg (poolTotal s) b) a e s))
    (hpath : idlePathFor s.cfg (poolTotal s) = .inRing) (hsize : wordMax < ringSize s.cfg idleClass (poolTotal s)) :
    SetupStep s (.allocCoherent (bankSize s.cfg (poolTotal s) b) (some (a.va, a.pa)))
      (startUnwind .configErr (addBank b a (afterAlloc (bankSize s.cfg (poolTotal s) b) a e s)))
  | ringRegion {a : Alloc} {e : Env} (hp : s.seq.pos = .ringAlloc (idleReq s))
    (h : hostAllocCoherent (ringSize s.cfg idleClass (poolTotal s)) s =
      (some a, afterAlloc (ringSize s.cfg idleClass (poolTotal s)) a e s)) :
    SetupStep s (.allocCoherent (ringSize s.cfg idleClass (poolTotal s)) (some (a.va, a.pa)))
      (goto (.ringRegister (idleReq s) a) (afterAlloc (ringSize s.cfg idleClass (poolTotal s)) a e s))
  | registered {a : Alloc} {hnd : Handle} {e : Env} (hp : s.seq.pos = .ringRegister (idleReq s) a)
    (h : engRingRegister (idleReq s) (idleParams a s) s =
      (some hnd, afterRegister (idleReq s) (idleParams a s) hnd e s)) :
    SetupStep s (.ringRegister idleClass 0 0 (idleParams a s) (some hnd))
      (goto .accessStart (addIdleRing a hnd (afterRegister (idleReq s) (idleParams a s) hnd e s)))
  | rejected {a : Alloc} {e : Env} (hp : s.seq.pos = .ringRegister (idleReq s) a)
    (h : (engRingRegister (idleReq s) (idleParams a s) s).1 = none) :
    SetupStep s (.ringRegister idleClass 0 0 (idleParams a s) none)
      (goto (.ringReject a) (record .seq (.ringRegister idleClass 0 0 (idleParams a s) none) { s with env := e }))
  | rejectFreed {a : Alloc} (hp : s.seq.pos = .ringReject a) :
    SetupStep s (.freeCoherent a) (startUnwind .regFail (afterFree a s))
  | opened {op : PortOp} {p : Producer} (hp : s.seq.pos = .accessStart)
    (hop : op = .srcAccessStart (s.ring idleClass 0).hnd) : SetupStep s op (goto (.getNext 0 0) (afterBracket op p s))
  | slot {b j : Nat} {op : PortOp} {p : Producer} (hp : s.seq.pos = .getNext b j)
    (hop : op = .srcGetNext (s.ring idleClass 0).hnd (producerSlot s)) :
    SetupStep s op (goto (.setLink (producerSlot s) b j) (afterBracket op p s))
  | link {slot : PAddr} {b j : Nat} {p : Pos} (hp : s.seq.pos = .setLink slot b j)
    (hnext : (∃ b' j', nextDesc s b j = some (b', j') ∧ p = .getNext b' j') ∨ nextDesc s b j = none ∧ p = .accessEnd) :
    SetupStep s (.setLinkAddr slot b (descAddress s b j))
      (goto p (countEntry (afterLink slot b (descAddress s b j) s)))
  | closed {op : PortOp} {p : Producer} (hp : s.seq.pos = .accessEnd)
    (hop : op = .srcAccessEnd (s.ring idleClass 0).hnd) : SetupStep s op (goto .publishRing (afterBracket op p s))
  | published {e : Env} (hp : s.seq.pos = .publishRing) :
    SetupStep s (.publishRing (s.ring idleClass 0).hnd true)
      (finishPool (afterPublish (.publishRing (s.ring idleClass 0).hnd true) e
        { s.pool with idlePath := .inRing, numScatterBufs := 0, tailOffset := 0 } s))
  | scat {n : Nat} {a : Alloc} {e : Env} (hp : s.seq.pos = .scatterAlloc n)
    (h : hostAllocCoherent s.cfg.scatterBufSize s = (some a, afterAlloc s.cfg.scatterBufSize a e s)) :
    SetupStep s (.allocCoherent s.cfg.scatterBufSize (some (a.va, a.pa)))
      (goto (afterScatPos s.cfg (poolTotal s) n) (addScat n a (afterAlloc s.cfg.scatterBufSize a e s)))
  | scatterLink {b j : Nat} {p : Pos} {tail : Word} (hp : s.seq.pos = .scatterLink b j)
    (hnext : (∃ b' j', nextDesc s b j = some (b', j') ∧ p = .scatterLink b' j') ∨
      nextDesc s b j = none ∧ p = .publishScatter) :
    SetupStep s (.setLinkAddr (scatterSlot s s.seq.cursor) b (descAddress s b j))
      (goto p (countEntry { afterLink (scatterSlot s s.seq.cursor) b (descAddress s b j) s with
        pool := { s.pool with tailOffset := tail } }))
  | publishedScatter {e : Env} (hp : s.seq.pos = .publishScatter) :
    SetupStep s (.publishScatter (scatterList s) true)
      (finishPool (afterPublish (.publishScatter (scatterList s) true) e { s.pool with idlePath := .scatter } s))

/-! ### What `Sound` says at each position -/

section
variable {s : State}

theorem Sound.bankAlloc_at {b : Nat} (h : Sound s) (hp : s.seq.pos = .bankAlloc b) :
    b = s.pool.numBanks ∧ b < banksNeeded s.cfg (poolTotal s) ∧ s.pool.numScatterBufs = 0 ∧ NoIdleRing s ∧
      s.seq.cursor = 0 := by
  obtain ⟨-, -, hat⟩ := h.ofSetup (by rw [hp]; rfl)
  unfold SetupAt at hat
  rwa [hp] at hat

theorem Sound.ringSetup_at {r : RingReq} (h : Sound s) (hc : SetupCmd s)
    (hp : s.seq.pos = .ringAlloc r ∨ ∃ a, s.seq.pos = .ringRegister r a) :
    r = idleReq s ∧ FillingRing s ∧ NoIdleRing s ∧ s.seq.cursor = 0 ∧
      ringSize s.cfg idleClass (poolTotal s) ≤ wordMax := by
  have hok : ringRequestOk s r = true := by
    have hsetup := h.setup
    unfold RingSetupOk at hsetup
    obtain hp | ⟨a, hp⟩ := hp <;> rw [hp] at hsetup
    · exact hsetup
    · exact hsetup.1
  obtain ⟨-, rfl, hfill, hno, hcursor⟩ | ⟨hop, -⟩ := (placeOk_ringJob_iff hp).mp h.place
  · exact ⟨rfl, hfill, hno, hcursor, ((ringRequestOk_iff s _).mp hok).2.2.2⟩
  · rw [hc.1] at hop
    cases hop

theorem Sound.setLink_at {slot : PAddr} {b j : Nat} (h : Sound s) (hp : s.seq.pos = .setLink slot b j) :
    FillingRing s ∧ IdleRing s ∧ WalkAt s b j ∧ s.producer = ⟨s.seq.cursor + 1, 0, 0, true⟩ ∧
      slot.toNat = (s.ring idleClass 0).basePa.toNat + idleEntrySize * s.seq.cursor := by
  obtain ⟨-, -, hat⟩ := h.ofSetup (by rw [hp]; rfl)
  unfold SetupAt at hat
  rwa [hp] at hat

theorem Sound.publishRing_at (h : Sound s) (hp : s.seq.pos = .publishRing) :
    FillingRing s ∧ IdleRing s ∧ s.producer = ⟨poolTotal s, poolTotal s, 0, false⟩ := by
  obtain ⟨-, -, hat⟩ := h.ofSetup (by rw [hp]; rfl)
  unfold SetupAt at hat
  rwa [hp] at hat

theorem Sound.scatterAlloc_at {n : Nat} (h : Sound s) (hp : s.seq.pos = .scatterAlloc n) :
    FillingScatter s ∧ n = s.pool.numScatterBufs ∧ n < scatterBufsNeeded s.cfg (poolTotal s) ∧ s.seq.cursor = 0 := by
  obtain ⟨-, -, hat⟩ := h.ofSetup (by rw [hp]; rfl)
  unfold SetupAt at hat
  rwa [hp] at hat

theorem Sound.scatterLink_at {b j : Nat} (h : Sound s) (hp : s.seq.pos = .scatterLink b j) :
    FillingScatter s ∧ s.pool.numScatterBufs = scatterBufsNeeded s.cfg (poolTotal s) ∧ WalkAt s b j := by
  obtain ⟨-, -, hat⟩ := h.ofSetup (by rw [hp]; rfl)
  unfold SetupAt at hat
  rwa [hp] at hat

theorem Sound.publishScatter_at (h : Sound s) (hp : s.seq.pos = .publishScatter) :
    FillingScatter s ∧ s.pool.numScatterBufs = scatterBufsNeeded s.cfg (poolTotal s) ∧
      s.pool.tailOffset.toNat = idleEntrySize * ((poolTotal s - 1) % entriesPerScatterBuf s.cfg) := by
  obtain ⟨-, -, hat⟩ := h.ofSetup (by rw [hp]; rfl)
  unfold SetupAt at hat
  rwa [hp] at hat

end

/-! ### Every step is one of these -/

/-- The idle-list ring's class exists in every valid configuration (R12). -/
theorem idle_slotExists {c : Config} (hc : configValid c = true) : slotExists c idleClass 0 = true := by
  obtain ⟨hclasses, -⟩ := (configValid_iff c).mp hc
  obtain ⟨-, -, hinst, hnamed, -⟩ := (classesValid_iff c).mp hclasses
  obtain ⟨hvalid, -⟩ := hnamed idleClass (by decide)
  obtain ⟨hmax, -⟩ := hinst idleClass (by decide) hvalid
  rw [slotExists, hvalid, Bool.true_and, decide_eq_true_eq]
  exact hmax

/-- Of the checks of R111 only the one on the size can fail for the idle-list ring (R143; log 13). -/
theorem idle_ringRequestOk {s : State} (hv : configValid s.cfg = true) (hno : NoIdleRing s) (ht : 1 ≤ poolTotal s) :
    ringRequestOk s (idleReq s) = true ↔ ringSize s.cfg idleClass (poolTotal s) ≤ wordMax := by
  rw [ringRequestOk_iff]
  exact ⟨fun h => h.2.2.2, fun h => ⟨idle_slotExists hv, congrArg RingRec.registered hno.1, Nat.ne_of_gt ht, h⟩⟩

section
variable {s : State}

theorem ringFail_of_setup (e : Err) (h : s.seq.op = .linkPoolSetup) : ringFail e s = startUnwind e s := by
  rw [ringFail, h]

theorem ringReturn_of_setup (r : RingReq) (h : s.seq.op = .linkPoolSetup) : ringReturn r s = goto .accessStart s := by
  rw [ringReturn, h]

theorem afterBanks_cases (hc : SetupCmd s) (hv : configValid s.cfg = true) (hno : NoIdleRing s) :
    afterBanks s = goto (match idlePathFor s.cfg (poolTotal s) with
        | .inRing => .ringAlloc (idleReq s)
        | .scatter => .scatterAlloc 0) s ∨
      idlePathFor s.cfg (poolTotal s) = .inRing ∧ wordMax < ringSize s.cfg idleClass (poolTotal s) ∧
        afterBanks s = startUnwind .configErr s := by
  unfold afterBanks
  cases hpath : idlePathFor s.cfg (poolTotal s) with
  | inRing =>
    by_cases hsize : ringSize s.cfg idleClass (poolTotal s) ≤ wordMax
    · exact .inl (if_pos ((idle_ringRequestOk hv hno hc.plan.1).mpr hsize))
    · refine .inr ⟨rfl, Nat.lt_of_not_le hsize, ?_⟩
      exact (if_neg (mt (idle_ringRequestOk hv hno hc.plan.1).mp hsize)).trans (ringFail_of_setup .configErr hc.1)
  | scatter => exact .inl rfl

theorem bankAllocStep_setupStep {b : Nat} (h : Sound s) (hp : s.seq.pos = .bankAlloc b) :
    ∃ op, SetupStep s op (bankAllocStep b s) := by
  obtain ⟨hbooks, hc, -⟩ := h.ofSetup (by rw [hp]; rfl)
  obtain ⟨-, -, -, hno, -⟩ := h.bankAlloc_at hp
  have hreq : requestSize s = bankSize s.cfg (poolTotal s) b := by rw [requestSize, hp]
  unfold bankAllocStep
  obtain hnone | ⟨a, hsome⟩ := Option.eq_none_or_eq_some (hostAllocCoherent (bankSize s.cfg (poolTotal s) b) s).1
  · obtain ⟨e, heq⟩ := hostAllocCoherent_of_none hnone
    rw [heq]
    exact ⟨_, .refused (hreq ▸ .null (by rw [hp]; rfl) (by rw [hreq]; exact heq))⟩
  · obtain ⟨-, -, e, heq⟩ := hostAllocCoherent_of_some hsome
    rw [heq]
    have hstep := SetupStep.bank hp heq
    dsimp only
    by_cases hnext : b + 1 < banksNeeded s.cfg (poolTotal s)
    · rw [afterBankPos, if_pos hnext] at hstep
      rw [if_pos hnext]
      exact ⟨_, hstep⟩
    · rw [afterBankPos, if_neg hnext] at hstep
      rw [if_neg hnext]
      obtain hgo | ⟨hpath, hsize, hbig⟩ :=
        afterBanks_cases (s := addBank b a (afterAlloc (bankSize s.cfg (poolTotal s) b) a e s)) hc hbooks.valid hno
      · exact ⟨_, hgo ▸ hstep⟩
      · exact ⟨_, (congrArg (SetupStep s _) hbig).mpr (.tooLarge hp heq hpath hsize)⟩

theorem ringAllocStep_setupStep {r : RingReq} (h : Sound s) (hc : SetupCmd s) (hp : s.seq.pos = .ringAlloc r) :
    ∃ op, SetupStep s op (ringAllocStep r s) := by
  obtain ⟨rfl, -⟩ := h.ringSetup_at hc (.inl hp)
  have hreq : requestSize s = ringSize s.cfg idleClass (poolTotal s) := by rw [requestSize, hp]; rfl
  unfold ringAllocStep
  change ∃ op, SetupStep s op (match hostAllocCoherent (ringSize s.cfg idleClass (poolTotal s)) s with
    | (none, s1) => ringFail .allocFail s1
    | (some a, s1) => goto (.ringRegister (idleReq s) a) s1)
  obtain hnone | ⟨a, hsome⟩ := Option.eq_none_or_eq_some (hostAllocCoherent (ringSize s.cfg idleClass (poolTotal s)) s).1
  · obtain ⟨e, heq⟩ := hostAllocCoherent_of_none hnone
    have hfail := ringFail_of_setup .allocFail
      (s := record .seq (.allocCoherent (ringSize s.cfg idleClass (poolTotal s)) none) { s with env := e }) hc.1
    rw [heq]
    dsimp only
    rw [hfail]
    exact ⟨_, .refused (hreq ▸ .null (by rw [hp]; rfl) (by rw [hreq]; exact heq))⟩
  · obtain ⟨-, -, e, heq⟩ := hostAllocCoherent_of_some hsome
    rw [heq]
    exact ⟨_, .ringRegion hp heq⟩

theorem ringRegisterStep_setupStep {r : RingReq} {a : Alloc} (h : Sound s) (hc : SetupCmd s)
    (hp : s.seq.pos = .ringRegister r a) : ∃ op, SetupStep s op (ringRegisterStep r a s) := by
  obtain ⟨rfl, -⟩ := h.ringSetup_at hc (.inr ⟨a, hp⟩)
  unfold ringRegisterStep
  change ∃ op, SetupStep s op (match engRingRegister (idleReq s) (idleParams a s) s with
    | (none, s1) => goto (.ringReject a) s1
    | (some h, s1) => ringReturn (idleReq s) (clearProducer idleClass (setRing idleClass 0 (ringRecord s.cfg (idleReq s) a h) s1)))
  obtain hnone | ⟨hnd, hsome⟩ := Option.eq_none_or_eq_some (engRingRegister (idleReq s) (idleParams a s) s).1
  · obtain ⟨e, heq⟩ := engRingRegister_of_none hnone
    rw [heq]
    exact ⟨_, .rejected hp hnone⟩
  · obtain ⟨-, -, e, heq⟩ := engRingRegister_of_some hsome
    rw [heq]
    refine ⟨.ringRegister idleClass 0 0 (idleParams a s) (some hnd), ?_⟩
    dsimp only
    have hreturn := ringReturn_of_setup (idleReq s) (s := addIdleRing a hnd (afterRegister (idleReq s) (idleParams a s) hnd e s)) hc.1
    exact (congrArg (SetupStep s _) hreturn).mpr (.registered hp heq)

theorem ringRejectStep_setupStep {a : Alloc} {t : State} (hc : SetupCmd s) (hp : s.seq.pos = .ringReject a)
    (ht : ringRejectStep a s = .next t) : ∃ op, SetupStep s op t := by
  obtain ⟨u, hu, ht⟩ := andThen_next ht
  obtain ⟨-, rfl⟩ := hostFreeCoherent_next hu
  cases ht
  have hfail := ringFail_of_setup .regFail (s := afterFree a s) hc.1
  exact ⟨_, (congrArg (SetupStep s _) hfail).mpr (.rejectFreed hp)⟩

theorem setLinkStep_setupStep {slot : PAddr} {b j : Nat} {t : State} (hp : s.seq.pos = .setLink slot b j)
    (ht : setLinkStep slot b j s = .next t) : ∃ op, SetupStep s op t := by
  unfold setLinkStep at ht
  split at ht
  · cases ht
  · obtain ⟨u, hu, ht⟩ := andThen_next ht
    obtain ⟨-, -, rfl⟩ := engSetLinkAddr_next hu
    cases hnext : nextDesc s b j with
    | some d => rw [hnext] at ht; cases ht; exact ⟨_, .link hp (.inl ⟨_, _, hnext, rfl⟩)⟩
    | none => rw [hnext] at ht; cases ht; exact ⟨_, .link hp (.inr ⟨hnext, rfl⟩)⟩

/-- The answer to a publication is the one drawn (R222). -/
theorem engPublishRing_answer {t : State} {ok : Bool} (h : engPublishRing s = .next (ok, t)) : (drawPublish s).1 = ok := by
  unfold engPublishRing at h
  dsimp only at h
  split at h
  · cases h
  · cases h
    rfl

theorem publishRingStep_setupStep {t : State} (hp : s.seq.pos = .publishRing) (ht : publishRingStep s = .next t) :
    ∃ op, SetupStep s op t := by
  unfold publishRingStep at ht
  split at ht
  · next s1 hpub =>
    obtain ⟨-, -, e, rfl⟩ := engPublishRing_next hpub
    cases ht
    rw [Bool.or_true]
    exact ⟨_, .published hp⟩
  · next s1 hpub =>
    obtain ⟨-, -, e, rfl⟩ := engPublishRing_next hpub
    cases ht
    rw [Bool.or_false]
    exact ⟨_, .refused (op := .publishRing (s.ring idleClass 0).hnd false) (e := e)
      (.ring hp (engPublishRing_answer hpub))⟩
  · cases ht
  · cases ht

theorem scatterAllocStep_setupStep {n : Nat} (hp : s.seq.pos = .scatterAlloc n) :
    ∃ op, SetupStep s op (scatterAllocStep n s) := by
  have hreq : requestSize s = s.cfg.scatterBufSize := by rw [requestSize, hp]
  unfold scatterAllocStep
  obtain hnone | ⟨a, hsome⟩ := Option.eq_none_or_eq_some (hostAllocCoherent s.cfg.scatterBufSize s).1
  · obtain ⟨e, heq⟩ := hostAllocCoherent_of_none hnone
    rw [heq]
    exact ⟨_, .refused (hreq ▸ .null (by rw [hp]; rfl) (by rw [hreq]; exact heq))⟩
  · obtain ⟨-, -, e, heq⟩ := hostAllocCoherent_of_some hsome
    have hstep := SetupStep.scat hp heq
    rw [heq]
    unfold afterScatPos at hstep
    dsimp only
    split_ifs at hstep ⊢
    · exact ⟨_, hstep⟩
    · exact ⟨_, hstep⟩

theorem scatterLinkStep_setupStep {b j : Nat} {t : State} (hp : s.seq.pos = .scatterLink b j)
    (ht : scatterLinkStep b j s = .next t) : ∃ op, SetupStep s op t := by
  obtain ⟨u, hu, ht⟩ := andThen_next ht
  obtain ⟨-, -, rfl⟩ := engSetLinkAddr_next hu
  cases hnext : nextDesc s b j with
  | some d =>
    rw [hnext] at ht
    cases ht
    exact ⟨_, .scatterLink (tail := s.pool.tailOffset) hp (.inl ⟨_, _, hnext, rfl⟩)⟩
  | none =>
    rw [hnext] at ht
    cases ht
    exact ⟨_, .scatterLink hp (.inr ⟨hnext, rfl⟩)⟩

theorem publishScatterStep_setupStep (hp : s.seq.pos = .publishScatter) : ∃ op, SetupStep s op (publishScatterStep s) := by
  obtain ⟨e, ok, heq⟩ := engPublishScatter_eq s
  have hans : (drawPublish s).1 = ok := congrArg Prod.fst heq
  unfold publishScatterStep
  rw [heq]
  cases ok with
  | true =>
    rw [Bool.or_true]
    exact ⟨_, .publishedScatter hp⟩
  | false =>
    rw [Bool.or_false]
    exact ⟨_, .refused (op := .publishScatter (scatterList s) false) (e := e) (.scatter hp hans)⟩

/-- From a sound machine each step of a setup that is not unwinding is one of `SetupStep`. -/
theorem posStep_setupStep (h : Sound s) (hc : SetupCmd s) (hp : s.seq.pos.ofBuild = true) :
    ∃ op t, posStep s = .next t ∧ SetupStep s op t := by
  obtain ⟨t, ht⟩ := posStep_answers h
  suffices hstep : ∃ op, SetupStep s op t from hstep.imp fun op hop => ⟨t, ht, hop⟩
  unfold posStep at ht
  cases hq : s.seq.pos <;> rw [hq] at hp ht <;> dsimp only at ht
  case ringAlloc r => cases ht; exact ringAllocStep_setupStep h hc hq
  case ringRegister r a => cases ht; exact ringRegisterStep_setupStep h hc hq
  case ringReject a => exact ringRejectStep_setupStep hc hq ht
  case bankAlloc b => cases ht; exact bankAllocStep_setupStep h hq
  case accessStart =>
    obtain ⟨u, hu, ht⟩ := andThen_next ht
    obtain ⟨-, rfl⟩ := engSrcAccessStart_next hu
    cases ht
    exact ⟨_, .opened hq rfl⟩
  case getNext b j =>
    obtain ⟨u, hu, ht⟩ := andThen_next ht
    obtain ⟨-, -, rfl⟩ := engSrcGetNext_next hu
    cases ht
    exact ⟨_, .slot hq rfl⟩
  case setLink slot b j => exact setLinkStep_setupStep hq ht
  case accessEnd => cases ht; exact ⟨_, .closed hq rfl⟩
  case publishRing => exact publishRingStep_setupStep hq ht
  case scatterAlloc n => cases ht; exact scatterAllocStep_setupStep hq
  case scatterLink b j => exact scatterLinkStep_setupStep hq ht
  case publishScatter => cases ht; exact publishScatterStep_setupStep hq
  all_goals cases hp

end

end Sys2Proof.Machine

namespace Sys2Proof.Machine

/-! ## A setup ends (R297) -/

/-- A bound on the steps still to come: fewer than 515 once the pool is unwound, and two for each descriptor before that. -/
def poolLength (s : State) : Nat :=
  match s.seq.pos with
  | .bankAlloc b => 776 + 2 * poolTotal s + (256 - b)
  | .scatterAlloc n => 518 + poolTotal s + (256 - n)
  | .ringAlloc _ => 520 + 2 * poolTotal s
  | .ringRegister _ _ => 519 + 2 * poolTotal s
  | .accessStart => 518 + 2 * poolTotal s
  | .getNext _ _ => 517 + 2 * (poolTotal s - s.seq.cursor)
  | .setLink _ _ _ => 516 + 2 * (poolTotal s - s.seq.cursor)
  | .scatterLink _ _ => 516 + (poolTotal s - s.seq.cursor)
  | .accessEnd => 516
  | .ringReject _ | .publishRing | .publishScatter => 515
  | _ => unwindLength s

theorem poolLength_of_not_build {s : State} (h : s.seq.pos.ofBuild = false) : poolLength s = unwindLength s := by
  unfold poolLength
  cases hq : s.seq.pos <;> rw [hq] at h
  case bankAlloc | scatterAlloc | ringAlloc | ringRegister | accessStart | getNext | setLink | scatterLink | accessEnd
    | ringReject | publishRing | publishScatter => cases h

theorem poolLength_build {s : State} (h : s.seq.pos.ofBuild = true) : 515 ≤ poolLength s := by
  unfold poolLength
  cases hq : s.seq.pos <;> rw [hq] at h
  case bankAlloc | scatterAlloc | ringAlloc | ringRegister | accessStart | getNext | setLink | scatterLink | accessEnd =>
    dsimp only; omega
  all_goals cases h

theorem poolLength_le (s : State) : poolLength s ≤ 1032 + 2 * 2 ^ 32 + (s.pool.numScatterBufs + s.pool.numBanks) := by
  have htotal : poolTotal s < 2 ^ 32 := s.pool.totalLinkDescs.isLt
  unfold poolLength
  cases hq : s.seq.pos
  case ringUnregister | ringFree | unwindScatter | unwindBank => simp only [unwindLength, hq]; omega
  case bankAlloc | scatterAlloc | ringAlloc | ringRegister | accessStart | getNext | setLink | scatterLink | accessEnd
    | ringReject | publishRing | publishScatter => dsimp only; omega
  all_goals simp [unwindLength, hq]

theorem startUnwind_not_build (e : Err) (s : State) : (startUnwind e s).seq.pos.ofBuild = false := by
  cases hr : (s.ring idleClass 0).registered with
  | true => rw [startUnwind_of_ring hr]; rfl
  | false =>
    rw [startUnwind_of_noRing hr]
    unfold unwindMemory
    split_ifs <;> rfl

theorem Pos.allocates_builds {p : Pos} (h : p.allocates = true) : p.ofBuild = true ∧ p.held = [] := by
  cases p <;> simp [Pos.allocates, Pos.ofBuild, Pos.ofSetup, Pos.held] at h ⊢

theorem Refused.ofBuild {s : State} {op : PortOp} {e : Env} (h : Refused s op e) :
    s.seq.pos.ofBuild = true ∧ s.seq.pos.held = [] := by
  cases h with
  | null hp => exact Pos.allocates_builds hp
  | ring hp => rw [hp]; exact ⟨rfl, rfl⟩
  | scatter hp => rw [hp]; exact ⟨rfl, rfl⟩

/-- Each step of a setup is one towards its end. -/
theorem SetupStep.length_lt {s t : State} {op : PortOp} (h : Sound s) (hc : SetupCmd s) (hstep : SetupStep s op t)
    (ht : Sound t) : poolLength t < poolLength s := by
  have hunwind {e : Err} {u : State} (hu : Sound (startUnwind e u)) (hp : s.seq.pos.ofBuild = true) :
      poolLength (startUnwind e u) < poolLength s := by
    have hlen := hu.unwindLength_le
    have hbuild := poolLength_build hp
    rw [poolLength_of_not_build (startUnwind_not_build e u)]
    omega
  have hlimits := poolLimits h.books.valid
  have hbanks := hlimits.banks
  have hbufs := hlimits.bufs
  obtain ⟨-, -, hmax, hplan⟩ := hc.plan
  cases hstep with
  | refused hr => exact hunwind ht hr.ofBuild.1
  | tooLarge hp => exact hunwind ht (by rw [hp]; rfl)
  | rejectFreed hp => exact hunwind ht (by rw [hp]; rfl)
  | bank hp =>
    obtain ⟨-, hlt, -⟩ := h.bankAlloc_at hp
    unfold poolLength goto afterBankPos
    rw [hp]
    dsimp only
    split_ifs
    · show 776 + 2 * poolTotal s + _ < _
      omega
    · cases idlePathFor s.cfg (poolTotal s)
      · show 520 + 2 * poolTotal s < _
        omega
      · show 518 + poolTotal s + _ < _
        omega
  | ringRegion hp =>
    unfold poolLength
    rw [hp]
    show 519 + 2 * poolTotal s < 520 + 2 * poolTotal s
    omega
  | registered hp =>
    unfold poolLength
    rw [hp]
    show 518 + 2 * poolTotal s < 519 + 2 * poolTotal s
    omega
  | rejected hp =>
    unfold poolLength
    rw [hp]
    show 515 < 519 + 2 * poolTotal s
    omega
  | opened hp =>
    unfold poolLength
    rw [hp]
    show 517 + 2 * (poolTotal s - s.seq.cursor) < 518 + 2 * poolTotal s
    omega
  | slot hp =>
    unfold poolLength
    rw [hp]
    show 516 + 2 * (poolTotal s - s.seq.cursor) < 517 + 2 * (poolTotal s - s.seq.cursor)
    omega
  | link hp hnext =>
    obtain ⟨hfill, -, hwalk, -⟩ := h.setLink_at hp
    obtain ⟨hb, -, -⟩ := h.ofSetup (by rw [hp]; rfl)
    have hlt := (Filling.mk hb hc hfill.1).walk_lt hwalk
    unfold poolLength
    rw [hp]
    obtain ⟨b', j', -, rfl⟩ | ⟨-, rfl⟩ := hnext
    · show 517 + 2 * (poolTotal s - (s.seq.cursor + 1)) < 516 + 2 * (poolTotal s - s.seq.cursor)
      omega
    · show 516 < 516 + 2 * (poolTotal s - s.seq.cursor)
      omega
  | closed hp =>
    unfold poolLength
    rw [hp]
    show 515 < 516
    omega
  | published hp =>
    unfold poolLength
    rw [hp]
    exact Nat.zero_lt_succ _
  | scat hp =>
    obtain ⟨⟨-, hpath, -⟩, -, hlt, -⟩ := h.scatterAlloc_at hp
    have hle := scatterBufsNeeded_le hplan hpath
    unfold poolLength goto afterScatPos
    rw [hp]
    dsimp only
    split_ifs
    · show 518 + poolTotal s + _ < _
      omega
    · show 516 + (poolTotal s - s.seq.cursor) < _
      omega
  | scatterLink hp hnext =>
    obtain ⟨⟨hnb, -⟩, -, hwalk⟩ := h.scatterLink_at hp
    obtain ⟨hb, -, -⟩ := h.ofSetup (by rw [hp]; rfl)
    have hlt := (Filling.mk hb hc hnb).walk_lt hwalk
    unfold poolLength
    rw [hp]
    obtain ⟨b', j', -, rfl⟩ | ⟨-, rfl⟩ := hnext
    · show 516 + (poolTotal s - (s.seq.cursor + 1)) < 516 + (poolTotal s - s.seq.cursor)
      omega
    · show 515 < 516 + (poolTotal s - s.seq.cursor)
      omega
  | publishedScatter hp =>
    unfold poolLength
    rw [hp]
    exact Nat.zero_lt_succ _

end Sys2Proof.Machine

namespace Sys2Proof.Machine

/-! ## What a setup has done so far (R130, R141 to R156, R229) -/

/-! ### Selections from the history -/

theorem obtained_append (es es' : List Event) : obtained (es ++ es') = obtained es ++ obtained es' :=
  List.filterMap_append

theorem released_append (es es' : List Event) : released (es ++ es') = released es ++ released es' :=
  List.filterMap_append

theorem requested_append (es es' : List Event) : requested (es ++ es') = requested es ++ requested es' :=
  List.filterMap_append

/-- An event neither gives the Manager a region nor takes one. -/
def Spares (op : PortOp) : Prop := obtained [⟨.seq, op⟩] = [] ∧ released [⟨.seq, op⟩] = []

/-- Every answer so far agreed, and the idle-list ring, if there is to be one, is small enough (R154; log 13). -/
def Granted (c : Config) (total : Nat) (es : List Event) : Prop :=
  (∀ e ∈ es, agreed e.op = true) ∧ (idlePathFor c total = .inRing → ringSize c idleClass total ≤ wordMax)

theorem Granted.of_append {c : Config} {total : Nat} {es es' : List Event} (h : Granted c total (es ++ es')) :
    Granted c total es := ⟨fun e he => h.1 e (List.mem_append_left es' he), h.2⟩

theorem not_granted_snoc {c : Config} {total : Nat} {es : List Event} {e : Event} (h : agreed e.op = false) :
    ¬Granted c total (es ++ [e]) := fun hg =>
  Bool.false_ne_true (h.symm.trans (hg.1 e (List.mem_append_right es (List.mem_singleton_self e))))

theorem forall_snoc {P : Event → Prop} {es : List Event} {e : Event} (h : ∀ x ∈ es, P x) (he : P e) :
    ∀ x ∈ es ++ [e], P x := fun x hx => by
  obtain hx | hx := List.mem_append.mp hx
  · exact h x hx
  · exact List.mem_singleton.mp hx ▸ he

/-- The first refusal decides, and what follows it does not (R154). -/
theorem failureCode_of_agreed {es es' : List Event} (h : ∀ e ∈ es', agreed e.op = true) :
    failureCode (es ++ es') = failureCode es := by
  have hnone : es'.find? (fun e => !agreed e.op) = none := List.find?_eq_none.mpr fun e he => by simp [h e he]
  unfold failureCode
  rw [List.find?_append, hnone, Option.or_none]

theorem failureCode_first {es : List Event} (h : ∀ e ∈ es, agreed e.op = true) {op : PortOp} (hop : agreed op = false) :
    failureCode (es ++ [⟨.seq, op⟩]) = refusalCode op := by
  have hnone : es.find? (fun e => !agreed e.op) = none := List.find?_eq_none.mpr fun e he => by simp [h e he]
  unfold failureCode
  rw [List.find?_append, hnone, Option.none_or, List.find?_singleton, hop]
  rfl

theorem failureCode_agreed {es : List Event} (h : ∀ e ∈ es, agreed e.op = true) : failureCode es = .configErr := by
  have hnone : es.find? (fun e => !agreed e.op) = none := List.find?_eq_none.mpr fun e he => by simp [h e he]
  rw [failureCode, hnone]

theorem failureCode_ne_ok (es : List Event) : failureCode es ≠ .ok := by
  unfold failureCode
  split
  · next e _ =>
    unfold refusalCode
    split <;> decide
  · decide

/-! ### The regions of the pool -/

/-- The regions that the pool's records name, in the order in which a setup obtains them (R141, R143, R148). -/
def poolRegions (s : State) : List Alloc :=
  (List.range s.pool.numBanks).map s.bankRegion ++ (List.range s.pool.numScatterBufs).map s.scatRegion ++
    (ringRegion (s.ring idleClass 0)).toList

/-- The sizes that a setup has asked for, with the region `held` of the idle-list ring not yet on record (R141 to R148). -/
def plannedSizes (held : List Alloc) (s : State) : List Nat :=
  (List.range s.pool.numBanks).map (bankSize s.cfg (poolTotal s)) ++
    List.replicate s.pool.numScatterBufs s.cfg.scatterBufSize ++
    (((ringRegion (s.ring idleClass 0)).toList ++ held).map fun _ => ringSize s.cfg idleClass (poolTotal s))

theorem ring_of_ledger {s t : State} (e : t.ledger = s.ledger) (k i : Nat) : t.ring k i = s.ring k i := by
  rw [State.ring, show t.rings = s.rings from congrArg Ledger.rings e]
  rfl

theorem bank_of_ledger {s t : State} (e : t.ledger = s.ledger) (b : Nat) : t.bank b = s.bank b := by
  rw [State.bank, show t.banks = s.banks from congrArg Ledger.banks e]
  rfl

theorem scat_of_ledger {s t : State} (e : t.ledger = s.ledger) (n : Nat) : t.scat n = s.scat n := by
  rw [State.scat, show t.scats = s.scats from congrArg Ledger.scats e]
  rfl

theorem poolRegions_of_ledger {s t : State} (e : t.ledger = s.ledger) : poolRegions t = poolRegions s := by
  have hcfg : t.cfg = s.cfg := congrArg Ledger.cfg e
  have hnb : t.pool.numBanks = s.pool.numBanks := congrArg Ledger.numBanks e
  have hns : t.pool.numScatterBufs = s.pool.numScatterBufs := congrArg Ledger.numScatterBufs e
  have hbank : t.bankRegion = s.bankRegion := funext fun b => by rw [State.bankRegion, bank_of_ledger e]; rfl
  have hscat : t.scatRegion = s.scatRegion := funext fun n => by rw [State.scatRegion, scat_of_ledger e, hcfg]; rfl
  rw [poolRegions, hnb, hns, hbank, hscat, ring_of_ledger e]
  rfl

theorem plannedSizes_of_ledger {held : List Alloc} {s t : State} (e : t.ledger = s.ledger) :
    plannedSizes held t = plannedSizes held s := by
  have hcfg : t.cfg = s.cfg := congrArg Ledger.cfg e
  have hnb : t.pool.numBanks = s.pool.numBanks := congrArg Ledger.numBanks e
  have hns : t.pool.numScatterBufs = s.pool.numScatterBufs := congrArg Ledger.numScatterBufs e
  have htotal : poolTotal t = poolTotal s := congrArg (fun l => l.totalLinkDescs.toNat) e
  rw [plannedSizes, hcfg, hnb, hns, htotal, ring_of_ledger e]
  rfl

/-- What `PoolUnwind` frees are the pool's regions, the last one first (R155). -/
theorem released_unwindEvents (s : State) :
    released (unwindEvents none s) = (poolRegions s).reverse := by
  have hfree (l : List Nat) (f : Nat → Alloc) : released (l.map fun n => freeEvent (f n)) = l.map f := by
    rw [released, List.filterMap_map]
    exact congrFun List.filterMap_eq_map l
  have hscats : ((List.range s.pool.numScatterBufs).reverse.map s.scatRegion) =
      ((List.range s.pool.numScatterBufs).map s.scatRegion).reverse := List.map_reverse
  have hbanks : ((List.range s.pool.numBanks).reverse.map s.bankRegion) =
      ((List.range s.pool.numBanks).map s.bankRegion).reverse := List.map_reverse
  rw [unwindEvents, released_append, released_append, hfree, hfree, hscats, hbanks, poolRegions, List.reverse_append,
    List.reverse_append, ← List.append_assoc]
  congr 2
  cases hr : (s.ring idleClass 0).registered with
  | true => simp [ringUnwindEvents, ringRegion, hr, released, freeEvent, RingRec.region]
  | false => simp [ringUnwindEvents, ringRegion, hr, released]

/-- Every record of `PoolUnwind` is the sequencer's, agrees and obtains nothing. -/
theorem unwindEvents_quiet (s : State) :
    obtained (unwindEvents none s) = [] ∧ ∀ e ∈ unwindEvents none s, e.agent = .seq ∧ agreed e.op = true := by
  have hmem : ∀ e ∈ unwindEvents none s, (∃ a, e = freeEvent a) ∨ ∃ h, e = ⟨.seq, .ringUnregister h⟩ := by
    intro e he
    simp only [unwindEvents, List.mem_append, List.mem_map] at he
    obtain (he | ⟨n, -, rfl⟩) | ⟨b, -, rfl⟩ := he
    · unfold ringUnwindEvents at he
      split at he
      · obtain he | he := List.mem_append.mp he
        · exact .inr ⟨_, List.mem_singleton.mp he⟩
        · exact .inl ⟨_, List.mem_singleton.mp he⟩
      · cases he
    · exact .inl ⟨_, rfl⟩
    · exact .inl ⟨_, rfl⟩
  refine ⟨List.filterMap_eq_nil_iff.mpr fun e he => ?_, fun e he => ?_⟩
  · obtain ⟨a, rfl⟩ | ⟨h, rfl⟩ := hmem e he <;> rfl
  · obtain ⟨a, rfl⟩ | ⟨h, rfl⟩ := hmem e he <;> exact ⟨rfl, rfl⟩

/-! ### The trail -/

/-- `s` is reached from `s0` by the events `es` of a setup. What was obtained and not given back is on record, but for
`held`. -/
structure Trail (held : List Alloc) (s0 s : State) (es : List Event) : Prop where
  bystanders : s.bystanders = s0.bystanders
  hist : s.hist = s0.hist ++ es
  agent : ∀ e ∈ es, e.agent = .seq
  rings : SameOtherRings s0 s
  mem : ∀ x, (∀ a ∈ obtained es, outside x a) → Memory.read s.mem x = Memory.read s0.mem x
  regions : obtained es = poolRegions s ++ held ++ (released es).reverse

section
variable {held held' : List Alloc} {s0 s t : State} {es : List Event} {op : PortOp}

theorem Trail.snoc (h : Trail held s0 s es) (hby : t.bystanders = s.bystanders) (hhist : t.hist = s.hist ++ [⟨.seq, op⟩])
    (hrings : SameOtherRings s0 t)
    (hmem : ∀ x, (∀ a ∈ obtained (es ++ [⟨.seq, op⟩]), outside x a) → Memory.read t.mem x = Memory.read s.mem x)
    (hregions : obtained (es ++ [⟨.seq, op⟩]) = poolRegions t ++ held' ++ (released (es ++ [⟨.seq, op⟩])).reverse) :
    Trail held' s0 t (es ++ [⟨.seq, op⟩]) where
  bystanders := hby.trans h.bystanders
  hist := by rw [hhist, h.hist, List.append_assoc]
  agent := forall_snoc h.agent rfl
  rings := hrings
  mem x hx := (hmem x hx).trans (h.mem x fun a ha => hx a (obtained_append es _ ▸ List.mem_append_left _ ha))
  regions := hregions

/-- An event that concerns no region. -/
theorem Trail.spare (h : Trail held s0 s es) (hby : t.bystanders = s.bystanders) (hhist : t.hist = s.hist ++ [⟨.seq, op⟩])
    (hrings : SameOtherRings s0 t) (hop : Spares op)
    (hmem : ∀ x, (∀ a ∈ obtained es, outside x a) → Memory.read t.mem x = Memory.read s.mem x)
    (hregions : poolRegions t ++ held' = poolRegions s ++ held) : Trail held' s0 t (es ++ [⟨.seq, op⟩]) := by
  refine h.snoc hby hhist hrings (fun x hx => hmem x fun a ha => hx a ?_) ?_
  · rw [obtained_append]
    exact List.mem_append_left _ ha
  · rw [obtained_append, released_append, hop.1, hop.2, List.append_nil, List.append_nil, hregions, h.regions]

/-- A region is obtained (R210, R282). -/
theorem Trail.alloc {size : Nat} {a : Alloc} (h : Trail [] s0 s es) (hby : t.bystanders = s.bystanders)
    (hhist : t.hist = s.hist ++ [⟨.seq, .allocCoherent size (some (a.va, a.pa))⟩]) (hrings : SameOtherRings s0 t)
    (hsize : a.size = BitVec.ofNat 32 size) (hword : size ≤ wordMax) (hkept : released es = [])
    (hmem : t.mem = Memory.forget s.mem a.pa.toNat size) (hregions : poolRegions t ++ held' = poolRegions s ++ [a]) :
    Trail held' s0 t (es ++ [⟨.seq, .allocCoherent size (some (a.va, a.pa))⟩]) := by
  have hnew : obtained [⟨.seq, .allocCoherent size (some (a.va, a.pa))⟩] = [a] := by
    show [(⟨a.va, a.pa, BitVec.ofNat 32 size⟩ : Alloc)] = [a]
    rw [← hsize]
  have hnone : released [⟨.seq, .allocCoherent size (some (a.va, a.pa))⟩] = [] := rfl
  refine h.snoc hby hhist hrings (fun x hx => ?_) ?_
  · rw [obtained_append, hnew] at hx
    rw [hmem]
    exact read_forget_outside (hsize ▸ size_toNat hword) (hx a (List.mem_append_right _ (List.mem_singleton_self a)))
  · have hold := h.regions
    rw [hkept, List.reverse_nil, List.append_nil, List.append_nil] at hold
    rw [obtained_append, released_append, hnew, hnone, hkept, hregions, hold, List.append_nil, List.reverse_nil,
      List.append_nil]

/-- The held region is given back (R115, R212). -/
theorem Trail.free {a : Alloc} (h : Trail [a] s0 s es) (hby : t.bystanders = s.bystanders)
    (hhist : t.hist = s.hist ++ [⟨.seq, .freeCoherent a⟩]) (hrings : SameOtherRings s0 t) (hmem : t.mem = s.mem)
    (hregions : poolRegions t = poolRegions s) : Trail [] s0 t (es ++ [⟨.seq, .freeCoherent a⟩]) := by
  have hnone : obtained [⟨.seq, .freeCoherent a⟩] = [] := rfl
  have hgone : released [⟨.seq, .freeCoherent a⟩] = [a] := rfl
  refine h.snoc hby hhist hrings (fun x _ => by rw [hmem]) ?_
  rw [obtained_append, released_append, hnone, hgone, hregions, h.regions]
  simp

end

/-! ### While everybody agrees -/

/-- Everything asked for was granted, and `LIVE` and `ENG_REG` have grown by it. -/
structure Granting (held : List Alloc) (total : Nat) (s0 s : State) (es : List Event) : Prop where
  trail : Trail held s0 s es
  planned : poolTotal s = total
  agreed : ∀ e ∈ es, agreed e.op = true
  kept : released es = []
  live : s.live = s0.live ++ obtained es
  asked : requested es = plannedSizes held s
  engReg : s.engReg = s0.engReg ++ if (s.ring idleClass 0).registered then [(s.ring idleClass 0).hnd] else []
  ringFits : (s.ring idleClass 0).registered = true → ringSize s.cfg idleClass total ≤ wordMax

section
variable {held : List Alloc} {total : Nat} {s0 s t : State} {es : List Event} {op : PortOp}

theorem Granting.spare (h : Granting held total s0 s es) (hby : t.bystanders = s.bystanders)
    (hhist : t.hist = s.hist ++ [⟨.seq, op⟩]) (hledger : t.ledger = s.ledger) (hop : Spares op)
    (hask : requested [⟨.seq, op⟩] = []) (hagreed : Machine.agreed op = true)
    (hmem : ∀ x, (∀ a ∈ obtained es, outside x a) → Memory.read t.mem x = Memory.read s.mem x) :
    Granting held total s0 t (es ++ [⟨.seq, op⟩]) where
  trail := h.trail.spare hby hhist (h.trail.rings.of_rings (congrArg Ledger.rings hledger)) hop hmem
    (by rw [poolRegions_of_ledger hledger])
  planned := (congrArg (fun l => l.totalLinkDescs.toNat) hledger).trans h.planned
  agreed := forall_snoc h.agreed hagreed
  kept := by rw [released_append, h.kept, hop.2]; rfl
  live := by
    rw [show t.live = s.live from congrArg Ledger.live hledger, obtained_append, hop.1, List.append_nil]
    exact h.live
  asked := by rw [requested_append, hask, List.append_nil, h.asked, plannedSizes_of_ledger hledger]
  engReg := by
    rw [show t.engReg = s.engReg from congrArg Ledger.engReg hledger, ring_of_ledger hledger]
    exact h.engReg
  ringFits := by
    rw [show t.cfg = s.cfg from congrArg Ledger.cfg hledger, ring_of_ledger hledger]
    exact h.ringFits

/-- Some region was obtained, for a bank, a scatter buffer or the ring. -/
theorem Granting.alloc {held' : List Alloc} {size : Nat} {a : Alloc} (h : Granting [] total s0 s es)
    (hby : t.bystanders = s.bystanders) (hhist : t.hist = s.hist ++ [⟨.seq, .allocCoherent size (some (a.va, a.pa))⟩])
    (hrings : t.rings = s.rings) (hsize : a.size = BitVec.ofNat 32 size) (hword : size ≤ wordMax)
    (hmem : t.mem = Memory.forget s.mem a.pa.toNat size) (hlive : t.live = s.live ++ [a]) (heng : t.engReg = s.engReg)
    (htotal : poolTotal t = poolTotal s) (hregions : poolRegions t ++ held' = poolRegions s ++ [a])
    (hplan : plannedSizes held' t = plannedSizes [] s ++ [size]) :
    Granting held' total s0 t (es ++ [⟨.seq, .allocCoherent size (some (a.va, a.pa))⟩]) := by
  have hring : t.ring idleClass 0 = s.ring idleClass 0 := by rw [State.ring, hrings]; rfl
  have hnew : obtained [⟨.seq, .allocCoherent size (some (a.va, a.pa))⟩] = [a] := by
    show [(⟨a.va, a.pa, BitVec.ofNat 32 size⟩ : Alloc)] = [a]
    rw [← hsize]
  refine ⟨h.trail.alloc hby hhist (h.trail.rings.of_rings hrings) hsize hword h.kept hmem hregions, htotal.trans h.planned,
    forall_snoc h.agreed rfl, ?_, ?_, ?_, ?_, ?_⟩
  · rw [released_append, h.kept]
    rfl
  · rw [hlive, h.live, obtained_append, hnew, List.append_assoc]
  · rw [requested_append, h.asked, hplan]
    rfl
  · rw [heng, hring]
    exact h.engReg
  · rw [cfg_of_bystanders hby, hring]
    exact h.ringFits

end

/-! ### One region more -/

section
variable {s : State} {a : Alloc} {b size : Nat} {e : Env}

theorem poolRegions_addBank (hb : b = s.pool.numBanks) (h256 : b < 256) (hscat : s.pool.numScatterBufs = 0)
    (hno : NoIdleRing s) : poolRegions (addBank b a (afterAlloc size a e s)) = poolRegions s ++ [a] := by
  have hkept : (List.range b).map (addBank b a (afterAlloc size a e s)).bankRegion = (List.range b).map s.bankRegion :=
    List.map_congr_left fun x hx => by
      have hbank : (addBank b a (afterAlloc size a e s)).bank x = s.bank x :=
        setBank_bank_other (Nat.ne_of_gt (List.mem_range.mp hx)) _ _
      rw [State.bankRegion, hbank]
      rfl
  have hnew : (addBank b a (afterAlloc size a e s)).bankRegion b = a := by
    rw [State.bankRegion, show (addBank b a (afterAlloc size a e s)).bank b = _ from setBank_bank_same h256 _ _]
    rfl
  have hring : ringRegion ((addBank b a (afterAlloc size a e s)).ring idleClass 0) = none := by
    show ringRegion (s.ring idleClass 0) = none
    rw [hno.1]
    rfl
  have hring' : ringRegion (s.ring idleClass 0) = none := hring
  have hscat' : (addBank b a (afterAlloc size a e s)).pool.numScatterBufs = 0 := hscat
  have hcount : (addBank b a (afterAlloc size a e s)).pool.numBanks = b + 1 := rfl
  rw [poolRegions, poolRegions, hring, hring', hscat, hscat', hcount, ← hb, List.range_succ, List.map_append, hkept]
  simp [hnew]

theorem plannedSizes_addBank (hb : b = s.pool.numBanks) (hscat : s.pool.numScatterBufs = 0) (hno : NoIdleRing s) :
    plannedSizes [] (addBank b a (afterAlloc size a e s)) = plannedSizes [] s ++ [bankSize s.cfg (poolTotal s) b] := by
  have hring : ringRegion (s.ring idleClass 0) = none := by rw [hno.1]; rfl
  show (List.range (b + 1)).map (bankSize s.cfg (poolTotal s)) ++ List.replicate s.pool.numScatterBufs s.cfg.scatterBufSize ++
    (((ringRegion (s.ring idleClass 0)).toList ++ []).map fun _ => ringSize s.cfg idleClass (poolTotal s)) = _
  rw [plannedSizes, hring, hscat, ← hb, List.range_succ]
  simp

theorem poolRegions_addScat {n : Nat} (hn : n = s.pool.numScatterBufs) (h256 : n < 256)
    (hsize : a.size = BitVec.ofNat 32 s.cfg.scatterBufSize) (hno : NoIdleRing s) :
    poolRegions (addScat n a (afterAlloc size a e s)) = poolRegions s ++ [a] := by
  have hkept : (List.range n).map (addScat n a (afterAlloc size a e s)).scatRegion = (List.range n).map s.scatRegion :=
    List.map_congr_left fun x hx => by
      have hscat : (addScat n a (afterAlloc size a e s)).scat x = s.scat x :=
        setScat_scat_other (Nat.ne_of_gt (List.mem_range.mp hx)) _ _
      rw [State.scatRegion, hscat]
      rfl
  have hnew : (addScat n a (afterAlloc size a e s)).scatRegion n = a := by
    rw [State.scatRegion, show (addScat n a (afterAlloc size a e s)).scat n = _ from setScat_scat_same h256 _ _]
    show (⟨a.va, a.pa, BitVec.ofNat 32 s.cfg.scatterBufSize⟩ : Alloc) = a
    rw [← hsize]
  have hring : ringRegion ((addScat n a (afterAlloc size a e s)).ring idleClass 0) = none := by
    show ringRegion (s.ring idleClass 0) = none
    rw [hno.1]
    rfl
  have hring' : ringRegion (s.ring idleClass 0) = none := hring
  have hbanks : (List.range (addScat n a (afterAlloc size a e s)).pool.numBanks).map
      (addScat n a (afterAlloc size a e s)).bankRegion = (List.range s.pool.numBanks).map s.bankRegion := rfl
  have hcount : (addScat n a (afterAlloc size a e s)).pool.numScatterBufs = n + 1 := rfl
  rw [poolRegions, poolRegions, hring, hring', hbanks, hcount, ← hn, List.range_succ, List.map_append, hkept]
  simp [hnew]

theorem plannedSizes_addScat {n : Nat} (hn : n = s.pool.numScatterBufs) (hno : NoIdleRing s) :
    plannedSizes [] (addScat n a (afterAlloc size a e s)) = plannedSizes [] s ++ [s.cfg.scatterBufSize] := by
  have hring : ringRegion (s.ring idleClass 0) = none := by rw [hno.1]; rfl
  show (List.range s.pool.numBanks).map (bankSize s.cfg (poolTotal s)) ++ List.replicate (n + 1) s.cfg.scatterBufSize ++
    (((ringRegion (s.ring idleClass 0)).toList ++ []).map fun _ => ringSize s.cfg idleClass (poolTotal s)) = _
  rw [plannedSizes, hring, ← hn, List.replicate_succ']
  simp

end

end Sys2Proof.Machine

namespace Sys2Proof.Machine

/-! ## What a setup has written so far (R76, R77, R144, R146, R150) -/

/-! ### Multi-byte reads (R69) -/

theorem Memory.readLe_congr {m m' : List Host.Cell} {x n : Nat}
    (h : ∀ j < n, Memory.read m (x + j) = Memory.read m' (x + j)) : Memory.readLe m x n = Memory.readLe m' x n := by
  induction n generalizing x with
  | zero => rfl
  | succ n ih =>
    have htail : Memory.readLe m (x + 1) n = Memory.readLe m' (x + 1) n := ih fun j hj => by
      rw [Nat.add_assoc, Nat.add_comm 1 j]
      exact h (j + 1) (by omega)
    unfold Memory.readLe
    rw [htail, show Memory.read m x = Memory.read m' x from h 0 (Nat.succ_pos n)]

/-- The bytes of `v` in ascending order are read as `v`. -/
theorem Memory.readLe_of_bytes {m : List Host.Cell} {x n v : Nat}
    (h : ∀ j < n, Memory.read m (x + j) = some (BitVec.ofNat 8 (v / 256 ^ j))) :
    Memory.readLe m x n = some (v % 256 ^ n) := by
  induction n generalizing x v with
  | zero => simp [Memory.readLe, Nat.mod_one]
  | succ n ih =>
    have htail : Memory.readLe m (x + 1) n = some (v / 256 % 256 ^ n) := ih fun j hj => by
      rw [Nat.add_assoc, Nat.add_comm 1 j, h (j + 1) (by omega), Nat.div_div_eq_div_mul, pow_succ']
    have hhead : Memory.read m x = some (BitVec.ofNat 8 v) := by simpa using h 0 (Nat.succ_pos n)
    rw [Memory.readLe, htail, hhead, pow_succ', Nat.mod_mul]
    simp

theorem Memory.readLe_writeLe (m : List Host.Cell) (x n v : Nat) :
    Memory.readLe (Memory.writeLe m x n v) x n = some (v % 256 ^ n) :=
  Memory.readLe_of_bytes fun _ hj => Memory.read_writeLe_inside m x v hj

theorem Memory.readLe_writeLe_apart (m : List Host.Cell) (v : Nat) {x y n k : Nat} (h : y + k ≤ x ∨ x + n ≤ y) :
    Memory.readLe (Memory.writeLe m x n v) y k = Memory.readLe m y k :=
  Memory.readLe_congr fun j hj => Memory.read_writeLe_outside m v (by omega)

/-- The image of an entry is the entry's own number (R77). -/
theorem entryImage_readLe {bank : Nat} (hb : bank < 256) (desc : PAddr) :
    entryImage bank desc % 256 ^ idleEntrySize = desc.toNat + 2 ^ 40 * bank := by
  have hd := desc.isLt
  unfold entryImage idleEntrySize
  omega

/-! ### The walk over the descriptors (R144) -/

/-- Element `j` of part `b` of a list put together from parts. -/
theorem flatMap_range_getElem? {α : Type} (f : Nat → List α) {n b j : Nat} (hb : b < n) (hj : j < (f b).length) :
    ((List.range n).flatMap f)[((List.range b).map fun x => (f x).length).sum + j]? = (f b)[j]? := by
  induction n with
  | zero => cases hb
  | succ n ih =>
    rw [List.range_succ, List.flatMap_append, List.flatMap_singleton]
    obtain rfl | hlt := Nat.eq_or_lt_of_le (Nat.le_of_lt_succ hb)
    · rw [List.getElem?_append_right (by rw [List.length_flatMap]; exact Nat.le_add_right _ _), List.length_flatMap,
        Nat.add_sub_cancel_left]
    · have hin := ih hlt
      have hlen := (List.getElem?_eq_some_iff.mp (hin.trans (List.getElem?_eq_getElem hj))).1
      rw [List.getElem?_append_left hlen, hin]

theorem descWalk_length (s : State) : (descWalk s).length = entriesBefore s s.pool.numBanks := by
  simp [descWalk, entriesBefore, List.length_flatMap]

/-- The walk's descriptor of a number is the one where the walk stands. -/
theorem descWalk_at {s : State} {b j : Nat} (h : WalkAt s b j) :
    (descWalk s)[s.seq.cursor]? = some (b, descAddress s b j) := by
  obtain ⟨hb, hj, hcursor⟩ := h
  have hget := flatMap_range_getElem? (fun b => (List.range (s.bank b).count.toNat).map fun j => (b, descAddress s b j)) hb
    (j := j) (by simpa using hj)
  rw [hcursor, entriesBefore]
  simpa [descWalk, hj] using hget

/-! ### Regions on record do not meet (R210) -/

theorem Books.recorded_apart {s : State} (h : Books [] none s) :
    (recordedRegions s).Pairwise fun a b => apart a.pa.toNat a.size.toNat b = true := by
  have hsymm {a b : Alloc} (hab : apart a.pa.toNat a.size.toNat b = true) : apart b.pa.toNat b.size.toNat a = true :=
    apart_symm hab rfl rfl
  have hregions := h.regions
  rw [List.append_nil] at hregions
  exact (hregions.pairwise_iff hsymm).mp h.live.2

theorem pairwise_map_range {α : Type} {R : α → α → Prop} {f : Nat → α} {n i j : Nat}
    (h : ((List.range n).map f).Pairwise R) (hij : i < j) (hj : j < n) : R (f i) (f j) := by
  have hget := List.pairwise_iff_getElem.mp h i j (by simpa using hij.trans hj) (by simpa using hj) hij
  simpa using hget

theorem Books.banks_apart {s : State} (h : Books [] none s) {i j : Nat} (hij : i < j) (hj : j < s.pool.numBanks) :
    apart (s.bankRegion i).pa.toNat (s.bankRegion i).size.toNat (s.bankRegion j) = true := by
  have hall := (List.pairwise_append.mp h.recorded_apart).1
  exact pairwise_map_range (List.pairwise_append.mp hall).2.1 hij hj

theorem Books.scats_apart {s : State} (h : Books [] none s) {i j : Nat} (hij : i < j) (hj : j < s.pool.numScatterBufs) :
    apart (s.scatRegion i).pa.toNat (s.scatRegion i).size.toNat (s.scatRegion j) = true :=
  pairwise_map_range (List.pairwise_append.mp h.recorded_apart).2.1 hij hj

/-! ### Where the entries stand (R76) -/

/-- The address of entry number `n` of the idle list that is being built. -/
def listSlot (s : State) (n : Nat) : PAddr :=
  match idlePathFor s.cfg (poolTotal s) with
  | .inRing => BitVec.ofNat 40 ((s.ring idleClass 0).basePa.toNat + idleEntrySize * n)
  | .scatter => scatterSlot s n

/-- Entries of different numbers do not meet. -/
def SlotsApart (s : State) : Prop :=
  ∀ n < poolTotal s, ∀ m < poolTotal s, n ≠ m →
    (listSlot s n).toNat + idleEntrySize ≤ (listSlot s m).toNat ∨ (listSlot s m).toNat + idleEntrySize ≤ (listSlot s n).toNat

theorem listSlot_inRing {s : State} (hb : Books [] none s) (hring : IdleRing s)
    (hpath : idlePathFor s.cfg (poolTotal s) = .inRing) {n : Nat} (hn : n < poolTotal s) :
    (listSlot s n).toNat = (s.ring idleClass 0).basePa.toNat + idleEntrySize * n := by
  rw [listSlot, hpath]
  show (BitVec.ofNat 40 _).toNat = _
  rw [BitVec.toNat_ofNat, Nat.mod_eq_of_lt (hring.slot_fits hb hn)]

theorem slotsApart_inRing {s : State} (hb : Books [] none s) (hring : IdleRing s)
    (hpath : idlePathFor s.cfg (poolTotal s) = .inRing) : SlotsApart s := by
  intro n hn m hm hne
  rw [listSlot_inRing hb hring hpath hn, listSlot_inRing hb hring hpath hm]
  unfold idleEntrySize
  omega

/-- The buffer of an entry is one of those allocated (R139). -/
theorem scatterBuf_lt {s : State} (hc : SetupCmd s) (hpath : idlePathFor s.cfg (poolTotal s) = .scatter)
    (hbufs : s.pool.numScatterBufs = scatterBufsNeeded s.cfg (poolTotal s)) {n : Nat} (hn : n < poolTotal s) :
    n / entriesPerScatterBuf s.cfg < s.pool.numScatterBufs := by
  obtain ⟨-, -, -, hplan⟩ := hc.plan
  rw [hbufs]
  exact Nat.div_lt_of_lt_mul (Nat.mul_comm _ _ ▸ hn.trans_le (scatterPlan_holds hplan hpath))

/-- An entry stands at its offset in its buffer (R76, R150). -/
theorem scatterSlot_toNat {s : State} (hb : Books [] none s) {n : Nat}
    (hn : n / entriesPerScatterBuf s.cfg < s.pool.numScatterBufs) :
    (scatterSlot s n).toNat =
      (s.scat (n / entriesPerScatterBuf s.cfg)).pa.toNat + idleEntrySize * (n % entriesPerScatterBuf s.cfg) := by
  have hl := poolLimits hb.valid
  obtain ⟨-, hmax, -, hscats⟩ := hb.tables
  have hfit := hscats _ ((hn.trans_le hmax).trans_le hl.bufs)
  rw [if_pos hn] at hfit
  have hentry := entry_fits hl n
  rw [scatterSlot, BitVec.toNat_ofNat]
  unfold addressSpace at hfit
  unfold idleEntrySize at hentry ⊢
  exact Nat.mod_eq_of_lt (by omega)

theorem slotsApart_scatter {s : State} (hb : Books [] none s) (hc : SetupCmd s)
    (hpath : idlePathFor s.cfg (poolTotal s) = .scatter)
    (hbufs : s.pool.numScatterBufs = scatterBufsNeeded s.cfg (poolTotal s)) : SlotsApart s := by
  have hslot (n : Nat) : listSlot s n = scatterSlot s n := by rw [listSlot, hpath]
  have hl := poolLimits hb.valid
  intro n hn m hm hne
  have hbn := scatterBuf_lt hc hpath hbufs hn
  have hbm := scatterBuf_lt hc hpath hbufs hm
  rw [hslot, hslot]
  by_cases hsame : n / entriesPerScatterBuf s.cfg = m / entriesPerScatterBuf s.cfg
  · rw [scatterSlot_toNat hb hbn, scatterSlot_toNat hb hbm, hsame]
    have hdn := Nat.div_add_mod n (entriesPerScatterBuf s.cfg)
    have hdm := Nat.div_add_mod m (entriesPerScatterBuf s.cfg)
    rw [hsame] at hdn
    unfold idleEntrySize
    omega
  · obtain ⟨hn1, hn2⟩ := scatterSlot_inside hb hbn
    obtain ⟨hm1, hm2⟩ := scatterSlot_inside hb hbm
    have hapart : apart (s.scatRegion (n / entriesPerScatterBuf s.cfg)).pa.toNat
        (s.scatRegion (n / entriesPerScatterBuf s.cfg)).size.toNat (s.scatRegion (m / entriesPerScatterBuf s.cfg)) = true := by
      obtain hlt | hlt := Nat.lt_or_gt_of_ne hsame
      · exact hb.scats_apart hlt hbm
      · exact apart_symm (hb.scats_apart hlt hbn) rfl rfl
    have hsides := (Bool.or_eq_true _ _).mp hapart
    rw [decide_eq_true_eq, decide_eq_true_eq] at hsides
    change (s.scat _).pa.toNat + (BitVec.ofNat 32 s.cfg.scatterBufSize).toNat ≤ (s.scat _).pa.toNat ∨
      (s.scat _).pa.toNat + (BitVec.ofNat 32 s.cfg.scatterBufSize).toNat ≤ (s.scat _).pa.toNat at hsides
    omega

/-! ### The list so far -/

/-- The entries of the whole list: slot, bank, descriptor (R146, R150). -/
def listEntries (s : State) : List (PAddr × Nat × PAddr) :=
  (descWalk s).zipIdx.map fun p => (listSlot s p.2, p.1.1, p.1.2)

theorem listEntries_getElem? {s : State} {n b : Nat} {d : PAddr} (h : (descWalk s)[n]? = some (b, d)) :
    (listEntries s)[n]? = some (listSlot s n, b, d) := by
  simp [listEntries, h]

theorem listEntries_length (s : State) : (listEntries s).length = (descWalk s).length := by simp [listEntries]

theorem descWalk_of_ledger {s t : State} (e : t.ledger = s.ledger) : descWalk t = descWalk s := by
  have hcfg : t.cfg = s.cfg := congrArg Ledger.cfg e
  have hnb : t.pool.numBanks = s.pool.numBanks := congrArg Ledger.numBanks e
  simp only [descWalk, descAddress, hnb, hcfg, bank_of_ledger e]

theorem listSlot_of_ledger {s t : State} (e : t.ledger = s.ledger) : listSlot t = listSlot s := by
  have hcfg : t.cfg = s.cfg := congrArg Ledger.cfg e
  have htotal : poolTotal t = poolTotal s := congrArg (fun l => l.totalLinkDescs.toNat) e
  funext n
  simp only [listSlot, scatterSlot, hcfg, htotal, ring_of_ledger e, scat_of_ledger e]

/-- The positions at which the list is complete. -/
def Pos.filled : Pos → Bool
  | .accessEnd | .publishRing | .publishScatter => true
  | _ => false

/-- In memory stands the image of entry `n`, if there is one (R77). -/
def ImageAt (s : State) (n : Nat) : Prop :=
  ∀ b d, (descWalk s)[n]? = some (b, d) →
    Memory.readLe s.mem (listSlot s n).toNat idleEntrySize = some (d.toNat + 2 ^ 40 * b)

/-- The entries written are the first ones of the list, as many as the cursor says, and stand in memory. -/
structure Written (s : State) (es : List Event) : Prop where
  entries : linked es = (listEntries s).take s.seq.cursor
  images : ∀ n < s.seq.cursor, ImageAt s n
  full : s.seq.pos.filled = true → s.seq.cursor = poolTotal s

/-- The whole list is written. -/
structure Published (t : State) (es : List Event) : Prop where
  entries : linked es = listEntries t
  images : ∀ n, ImageAt t n
  length : (descWalk t).length = poolTotal t

theorem linked_append (es es' : List Event) : linked (es ++ es') = linked es ++ linked es' := List.filterMap_append

section
variable {s t : State} {es : List Event} {op : PortOp}

/-- Before the first entry nothing is asked of the list. -/
theorem Written.unfilled (h : Written s es) (hop : linked [⟨.seq, op⟩] = []) (h0 : s.seq.cursor = 0)
    (ht : t.seq.cursor = 0) (hp : t.seq.pos.filled = false) : Written t (es ++ [⟨.seq, op⟩]) where
  entries := by rw [linked_append, hop, h.entries, h0, ht, List.take_zero, List.take_zero, List.append_nil]
  images n hn := absurd (ht ▸ hn) (Nat.not_lt_zero n)
  full hf := absurd (hp.symm.trans hf) Bool.false_ne_true

theorem ImageAt.of_ledger {n : Nat} (h : ImageAt s n) (hledger : t.ledger = s.ledger) (hmem : t.mem = s.mem) :
    ImageAt t n := by
  unfold ImageAt at h ⊢
  rw [descWalk_of_ledger hledger, listSlot_of_ledger hledger, hmem]
  exact h

theorem listEntries_of_ledger (hledger : t.ledger = s.ledger) : listEntries t = listEntries s := by
  rw [listEntries, descWalk_of_ledger hledger, listSlot_of_ledger hledger]
  rfl

/-- A step that writes no entry. -/
theorem Written.keep (h : Written s es) (hop : linked [⟨.seq, op⟩] = []) (hledger : t.ledger = s.ledger)
    (hmem : t.mem = s.mem) (hcursor : t.seq.cursor = s.seq.cursor)
    (hp : t.seq.pos.filled = true → s.seq.pos.filled = true) : Written t (es ++ [⟨.seq, op⟩]) where
  entries := by rw [linked_append, hop, List.append_nil, h.entries, hcursor, listEntries_of_ledger hledger]
  images n hn := (h.images n (hcursor ▸ hn)).of_ledger hledger hmem
  full hf := by
    rw [hcursor, h.full (hp hf)]
    exact (congrArg (fun l => l.totalLinkDescs.toNat) hledger).symm

/-- The next entry is written. -/
theorem Written.link {b j : Nat} (h : Written s es) (hfill : Filling s) (hwalk : WalkAt s b j) (hapart : SlotsApart s)
    (hledger : t.ledger = s.ledger) (hcursor : t.seq.cursor = s.seq.cursor + 1)
    (hmem : t.mem = Memory.writeLe s.mem (listSlot s s.seq.cursor).toNat idleEntrySize
      (entryImage b (descAddress s b j)))
    (hp : t.seq.pos.filled = true → s.seq.cursor + 1 = poolTotal s) :
    Written t (es ++ [⟨.seq, .setLinkAddr (listSlot s s.seq.cursor) b (descAddress s b j)⟩]) where
  entries := by
    have hnew : linked [⟨.seq, .setLinkAddr (listSlot s s.seq.cursor) b (descAddress s b j)⟩] =
      [(listSlot s s.seq.cursor, b, descAddress s b j)] := rfl
    rw [linked_append, hnew, h.entries, hcursor, listEntries_of_ledger hledger, List.take_add_one,
      listEntries_getElem? (descWalk_at hwalk)]
    rfl
  images n hn b' d hd := by
    rw [descWalk_of_ledger hledger] at hd
    rw [listSlot_of_ledger hledger, hmem]
    have hlt := hfill.walk_lt hwalk
    obtain hlt' | rfl := Nat.lt_or_eq_of_le (Nat.le_of_lt_succ (hcursor ▸ hn))
    · rw [Memory.readLe_writeLe_apart _ _ (hapart n (hlt'.trans hlt) _ hlt (Nat.ne_of_lt hlt'))]
      exact h.images n hlt' b' d hd
    · have hhere := descWalk_at hwalk
      rw [hd] at hhere
      cases hhere
      have hbank : b < 256 := (hwalk.1.trans_le hfill.books.tables.1).trans_le (poolLimits hfill.books.valid).banks
      rw [Memory.readLe_writeLe, entryImage_readLe hbank]
  full hf := by
    rw [hcursor, hp hf]
    exact (congrArg (fun l => l.totalLinkDescs.toNat) hledger).symm

/-- With the whole plan in place and every entry written, the list is complete. -/
theorem Written.published (h : Written s es) (hfill : Filling s) (hp : s.seq.pos.filled = true)
    (hop : linked [⟨.seq, op⟩] = []) (hledger : t.ledger = s.ledger) (hmem : t.mem = s.mem) :
    Published t (es ++ [⟨.seq, op⟩]) := by
  have hlen : (descWalk s).length = poolTotal s := (descWalk_length s).trans hfill.entries
  have hcursor := h.full hp
  refine ⟨?_, fun n => ?_, ?_⟩
  · rw [linked_append, hop, List.append_nil, h.entries, listEntries_of_ledger hledger,
      List.take_of_length_le (by rw [listEntries_length, hlen, hcursor])]
  · by_cases hn : n < s.seq.cursor
    · exact (h.images n hn).of_ledger hledger hmem
    · intro b d hd
      rw [descWalk_of_ledger hledger, List.getElem?_eq_none (by omega)] at hd
      cases hd
  · rw [descWalk_of_ledger hledger, hlen]
    exact (congrArg (fun l => l.totalLinkDescs.toNat) hledger).symm

end

theorem ledger_published {s : State} {op : PortOp} {e : Env} {pa : IdlePath} {w : Word}
    (h : s.pool.numScatterBufs = 0) :
    (finishPool (afterPublish op e { s.pool with idlePath := pa, numScatterBufs := 0, tailOffset := w } s)).ledger =
      s.ledger := by
  unfold State.ledger
  rw [h]
  rfl

theorem ledger_publishedScatter {s : State} {op : PortOp} {e : Env} {pa : IdlePath} :
    (finishPool (afterPublish op e { s.pool with idlePath := pa } s)).ledger = s.ledger := by
  unfold State.ledger
  rfl

theorem ledger_linked {s : State} {p : Pos} {slot desc : PAddr} {b : Nat} :
    (goto p (countEntry (afterLink slot b desc s))).ledger = s.ledger := by
  unfold State.ledger goto countEntry afterLink record
  rfl

theorem ledger_scatterLinked {s : State} {p : Pos} {slot desc : PAddr} {b : Nat} {tail : Word} :
    (goto p (countEntry { afterLink slot b desc s with pool := { s.pool with tailOffset := tail } })).ledger =
      s.ledger := by
  unfold State.ledger goto countEntry afterLink record
  rfl

theorem startUnwind_valid {e : Err} {s : State} (h : s.pool.valid = false) : (startUnwind e s).pool.valid = false := by
  cases hr : (s.ring idleClass 0).registered with
  | true => rw [startUnwind_of_ring hr]; exact h
  | false =>
    rw [startUnwind_of_noRing hr]
    unfold unwindMemory
    split_ifs
    · exact h
    · exact h
    · rfl

/-- After the last descriptor of the walk the list is complete. -/
theorem Filling.filled_last {s : State} (h : Filling s) {b j : Nat} (hw : WalkAt s b j) {p : Pos}
    (hp : p.filled = false ∨ nextDesc s b j = none) : p.filled = true → s.seq.cursor + 1 = poolTotal s := fun hf => by
  obtain hp | hp := hp
  · exact absurd (hp.symm.trans hf) Bool.false_ne_true
  · obtain ⟨b', j', hnext, -⟩ | ⟨-, hend⟩ := h.walk_next hw
    · rw [hp] at hnext
      cases hnext
    · exact hend

/-- Every step of a setup writes the next entry, or none. -/
theorem Written.step {s t : State} {es : List Event} {op : PortOp} (h : Written s es) (hs : Sound s) (hc : SetupCmd s)
    (hstep : SetupStep s op t) :
    (t.seq.pos.ofBuild = true → Written t (es ++ [⟨.seq, op⟩])) ∧
      (t.pool.valid = true → Published t (es ++ [⟨.seq, op⟩])) := by
  obtain ⟨-, hvalid, -⟩ := id hc
  have hbuilds (hw : Written t (es ++ [⟨.seq, op⟩])) (hv : t.pool.valid = s.pool.valid) :
      (t.seq.pos.ofBuild = true → Written t (es ++ [⟨.seq, op⟩])) ∧
        (t.pool.valid = true → Published t (es ++ [⟨.seq, op⟩])) :=
    ⟨fun _ => hw, fun ht => absurd ((hv.trans hvalid).symm.trans ht) Bool.false_ne_true⟩
  have hunwinds {e : Err} {u : State} (ht : t = startUnwind e u) (hu : u.pool.valid = s.pool.valid) :
      (t.seq.pos.ofBuild = true → Written t (es ++ [⟨.seq, op⟩])) ∧
        (t.pool.valid = true → Published t (es ++ [⟨.seq, op⟩])) := by
    rw [ht]
    exact ⟨fun hp => absurd ((startUnwind_not_build e u).symm.trans hp) Bool.false_ne_true,
      fun hv => absurd ((startUnwind_valid (hu.trans hvalid)).symm.trans hv) Bool.false_ne_true⟩
  cases hstep with
  | refused hr => exact hunwinds rfl rfl
  | tooLarge hp => exact hunwinds rfl rfl
  | rejectFreed hp => exact hunwinds rfl rfl
  | bank hp =>
    obtain ⟨-, -, -, -, hcursor⟩ := hs.bankAlloc_at hp
    refine hbuilds (h.unfilled rfl hcursor hcursor ?_) rfl
    show (afterBankPos s.cfg (poolTotal s) _).filled = false
    unfold afterBankPos
    split_ifs
    · rfl
    · cases idlePathFor s.cfg (poolTotal s) <;> rfl
  | ringRegion hp =>
    obtain ⟨-, -, -, hcursor, -⟩ := hs.ringSetup_at hc (.inl hp)
    exact hbuilds (h.unfilled rfl hcursor hcursor rfl) rfl
  | registered hp =>
    obtain ⟨-, -, -, hcursor, -⟩ := hs.ringSetup_at hc (.inr ⟨_, hp⟩)
    exact hbuilds (h.unfilled rfl hcursor hcursor rfl) rfl
  | rejected hp =>
    obtain ⟨-, -, -, hcursor, -⟩ := hs.ringSetup_at hc (.inr ⟨_, hp⟩)
    exact hbuilds (h.unfilled rfl hcursor hcursor rfl) rfl
  | opened hp hop => exact hbuilds (h.keep (hop ▸ rfl) rfl rfl rfl nofun) rfl
  | slot hp hop => exact hbuilds (h.keep (hop ▸ rfl) rfl rfl rfl nofun) rfl
  | @link slot b j p hp hnext =>
    obtain ⟨hfill, hidle, hwalk, -, hslot⟩ := hs.setLink_at hp
    obtain ⟨hb, -⟩ := hs.ofSetup (by rw [hp]; rfl)
    have hfilling : Filling s := ⟨hb, hc, hfill.1⟩
    have hhere : slot = listSlot s s.seq.cursor :=
      BitVec.eq_of_toNat_eq (hslot.trans (listSlot_inRing hb hidle hfill.2.1 (hfilling.walk_lt hwalk)).symm)
    subst hhere
    refine hbuilds (h.link hfilling hwalk (slotsApart_inRing hb hidle hfill.2.1) ledger_linked rfl rfl ?_) rfl
    exact hfilling.filled_last hwalk (hnext.imp (fun ⟨b', j', _, hq⟩ => hq ▸ rfl) And.left)
  | closed hp hop => exact hbuilds (h.keep (hop ▸ rfl) rfl rfl rfl fun _ => by rw [hp]; rfl) rfl
  | published hp =>
    obtain ⟨hfill, -⟩ := hs.publishRing_at hp
    obtain ⟨hb, -⟩ := hs.ofSetup (by rw [hp]; rfl)
    have hbufs : s.pool.numScatterBufs = 0 := hfill.2.2
    refine ⟨nofun, fun _ => h.published ⟨hb, hc, hfill.1⟩ (by rw [hp]; rfl) rfl (ledger_published hbufs) rfl⟩
  | scat hp =>
    obtain ⟨-, -, -, hcursor⟩ := hs.scatterAlloc_at hp
    refine hbuilds (h.unfilled rfl hcursor hcursor ?_) rfl
    show (afterScatPos s.cfg (poolTotal s) _).filled = false
    unfold afterScatPos
    split_ifs <;> rfl
  | @scatterLink b j p tail hp hnext =>
    obtain ⟨⟨hnb, hpath, -⟩, hbufs, hwalk⟩ := hs.scatterLink_at hp
    obtain ⟨hb, -⟩ := hs.ofSetup (by rw [hp]; rfl)
    have hfilling : Filling s := ⟨hb, hc, hnb⟩
    have hhere : scatterSlot s s.seq.cursor = listSlot s s.seq.cursor := by rw [listSlot, hpath]
    rw [hhere] at hbuilds ⊢
    refine hbuilds (h.link hfilling hwalk (slotsApart_scatter hb hc hpath hbufs) ledger_scatterLinked rfl rfl ?_) rfl
    exact hfilling.filled_last hwalk (hnext.imp (fun ⟨b', j', _, hq⟩ => hq ▸ rfl) And.left)
  | publishedScatter hp =>
    obtain ⟨⟨hnb, -⟩, -⟩ := hs.publishScatter_at hp
    obtain ⟨hb, -⟩ := hs.ofSetup (by rw [hp]; rfl)
    exact ⟨nofun, fun _ => h.published ⟨hb, hc, hnb⟩ (by rw [hp]; rfl) rfl ledger_publishedScatter rfl⟩

end Sys2Proof.Machine

namespace Sys2Proof.Machine

/-! ## The phases of a setup (R130, R153, R154) -/

/-- The positions at which everything asked for so far was granted. -/
def Pos.building : Pos → Bool
  | .ringAlloc _ | .ringRegister _ _ => true
  | p => p.ofSetup

theorem Pos.building_builds {p : Pos} (h : p.building = true) : p.ofBuild = true := by
  cases p <;> simp [Pos.building, Pos.ofSetup, Pos.ofBuild] at h ⊢

/-- Everything asked for so far was granted, and the setup goes on. -/
structure Building (total : Nat) (s0 s : State) (es : List Event) : Prop where
  granting : Granting s.seq.pos.held total s0 s es
  command : SetupCmd s
  position : s.seq.pos.building = true
  engIdle : s.engIdle = s0.engIdle
  written : Written s es

/-- Something was refused, so that the setup is going to end with the code `c`. -/
structure Broken (total : Nat) (c : Err) (held : List Alloc) (s0 s : State) (es : List Event) : Prop where
  trail : Trail held s0 s es
  refused : ¬Granted s0.cfg total es
  code : failureCode es = c
  engIdle : s.engIdle = s0.engIdle

/-- The setup is done (R153). -/
structure Succeeded (total : Nat) (s0 t : State) (es : List Event) : Prop where
  granting : Granting [] total s0 t es
  published : Published t es
  seq : t.seq = {}
  err : t.err = .ok
  res0 : t.res0 = t.pool.totalLinkDescs
  res1 : t.res1 = BitVec.ofNat 32 (t.pool.numBanks + 2 ^ 16 * t.pool.numScatterBufs)
  valid : t.pool.valid = true
  engIdle : t.engIdle = true
  producer : idlePathFor t.cfg total = .inRing → t.producer = ⟨total, total, 0, false⟩

/-- Where a setup begun in `s0` stands in `s`. -/
inductive SetupPhase (total : Nat) (s0 s : State) : Prop
  | building {es : List Event} (h : Building total s0 s es)
  | rejecting {es : List Event} {a : Alloc} (hp : s.seq.pos = .ringReject a) (hc : SetupCmd s)
    (h : Broken total .regFail [a] s0 s es)
  | unwinding {u : State} {c : Err} {es : List Event} (hop : u.seq.op = .linkPoolSetup) (h : Broken total c [] s0 u es)
    (hs : Unwound u c s)
  | done {es : List Event} (h : Succeeded total s0 s es)

theorem SetupCmd.keep {s t : State} (h : SetupCmd s) (hcfg : t.cfg = s.cfg) (hop : t.seq.op = s.seq.op)
    (harg : t.seq.arg = s.seq.arg) (hv : t.pool.valid = s.pool.valid)
    (htotal : t.pool.totalLinkDescs = s.pool.totalLinkDescs) : SetupCmd t := by
  unfold SetupCmd scalar poolTotal
  rw [hop, hv, hcfg, harg, htotal]
  exact h

theorem afterBankPos_building (c : Config) (total b : Nat) :
    (afterBankPos c total b).building = true ∧ (afterBankPos c total b).held = [] := by
  unfold afterBankPos
  split_ifs
  · exact ⟨rfl, rfl⟩
  · cases idlePathFor c total <;> exact ⟨rfl, rfl⟩

theorem afterScatPos_building (c : Config) (total n : Nat) :
    (afterScatPos c total n).building = true ∧ (afterScatPos c total n).held = [] := by
  unfold afterScatPos
  split_ifs <;> exact ⟨rfl, rfl⟩

/-! ### What each grant leaves -/

theorem Granting.goto {held : List Alloc} {total : Nat} {s0 s : State} {es : List Event} (h : Granting held total s0 s es)
    (p : Pos) : Granting held total s0 (goto p s) es := by
  obtain ⟨⟨hby, hhist, hagent, hrings, hmem, hregions⟩, hplanned, hagreed, hkept, hlive, hasked, heng, hfits⟩ := h
  exact ⟨⟨hby, hhist, hagent, hrings, hmem, hregions⟩, hplanned, hagreed, hkept, hlive, hasked, heng, hfits⟩

theorem bystanders_linked {s : State} {p : Pos} {slot desc : PAddr} {b : Nat} :
    (Machine.goto p (countEntry (afterLink slot b desc s))).bystanders = s.bystanders := by
  unfold State.bystanders State.serviceView Machine.goto countEntry afterLink record
  rfl

theorem bystanders_scatterLinked {s : State} {p : Pos} {slot desc : PAddr} {b : Nat} {tail : Word} :
    (Machine.goto p (countEntry
      { afterLink slot b desc s with pool := { s.pool with tailOffset := tail } })).bystanders = s.bystanders := by
  unfold State.bystanders State.serviceView Machine.goto countEntry afterLink record
  rfl

theorem finishPool_frame {s : State} {op : PortOp} {e : Env} {p : Pool} :
    (finishPool (afterPublish op e p s)).bystanders = s.bystanders ∧
      (finishPool (afterPublish op e p s)).hist = s.hist ++ [⟨.seq, op⟩] ∧
      (finishPool (afterPublish op e p s)).mem = s.mem := by
  unfold State.bystanders State.serviceView
  exact ⟨rfl, rfl, rfl⟩

section
variable {total : Nat} {s0 s t : State} {es : List Event} {a : Alloc} {e : Env}

theorem Granting.bank {b : Nat} (h : Granting [] total s0 s es) (hs : Sound s) (hp : s.seq.pos = .bankAlloc b)
    (ha : hostAllocCoherent (bankSize s.cfg (poolTotal s) b) s =
      (some a, afterAlloc (bankSize s.cfg (poolTotal s) b) a e s)) :
    Granting [] total s0 (addBank b a (afterAlloc (bankSize s.cfg (poolTotal s) b) a e s))
      (es ++ [⟨.seq, .allocCoherent (bankSize s.cfg (poolTotal s) b) (some (a.va, a.pa))⟩]) := by
  obtain ⟨hb, ⟨-, -, hplan⟩, -⟩ := hs.ofSetup (by rw [hp]; rfl)
  obtain ⟨hcount, hlt, hscat, hno, -⟩ := hs.bankAlloc_at hp
  obtain ⟨-, -, -, hbanks, -⟩ := planTotal_passes hplan
  have hl := poolLimits hb.valid
  obtain ⟨hsize, -⟩ := hostAllocCoherent_of_some (congrArg Prod.fst ha)
  refine h.alloc rfl rfl rfl hsize ((bank_fits hl _ b).2.trans hl.word) rfl rfl rfl rfl ?_ ?_
  · rw [List.append_nil]
    exact poolRegions_addBank hcount ((hlt.trans_le hbanks).trans_le hl.banks) hscat hno
  · exact plannedSizes_addBank hcount hscat hno

theorem Granting.scat {n : Nat} (h : Granting [] total s0 s es) (hs : Sound s) (hp : s.seq.pos = .scatterAlloc n)
    (ha : hostAllocCoherent s.cfg.scatterBufSize s = (some a, afterAlloc s.cfg.scatterBufSize a e s)) :
    Granting [] total s0 (addScat n a (afterAlloc s.cfg.scatterBufSize a e s))
      (es ++ [⟨.seq, .allocCoherent s.cfg.scatterBufSize (some (a.va, a.pa))⟩]) := by
  obtain ⟨hb, ⟨-, -, hplan⟩, -⟩ := hs.ofSetup (by rw [hp]; rfl)
  obtain ⟨⟨-, hpath, hno⟩, hcount, hlt, -⟩ := hs.scatterAlloc_at hp
  obtain ⟨-, -, -, -, hscatter⟩ := planTotal_passes hplan
  have hmax := scatterBufsNeeded_le hscatter hpath
  have hl := poolLimits hb.valid
  obtain ⟨hsize, -⟩ := hostAllocCoherent_of_some (congrArg Prod.fst ha)
  refine h.alloc rfl rfl rfl hsize (hl.oneBuf.trans hl.word) rfl rfl rfl rfl ?_ ?_
  · rw [List.append_nil]
    exact poolRegions_addScat hcount ((hlt.trans_le hmax).trans_le hl.bufs) hsize hno
  · exact plannedSizes_addScat hcount hno

theorem Granting.ringRegion (h : Granting [] total s0 s es) (hs : Sound s) (hc : SetupCmd s)
    (hp : s.seq.pos = .ringAlloc (idleReq s))
    (ha : hostAllocCoherent (ringSize s.cfg idleClass (poolTotal s)) s =
      (some a, afterAlloc (ringSize s.cfg idleClass (poolTotal s)) a e s)) :
    Granting [a] total s0 (afterAlloc (ringSize s.cfg idleClass (poolTotal s)) a e s)
      (es ++ [⟨.seq, .allocCoherent (ringSize s.cfg idleClass (poolTotal s)) (some (a.va, a.pa))⟩]) := by
  obtain ⟨-, -, ⟨hring, -⟩, -, hword⟩ := hs.ringSetup_at hc (.inl hp)
  obtain ⟨hsize, -⟩ := hostAllocCoherent_of_some (congrArg Prod.fst ha)
  have hnone : Machine.ringRegion (s.ring idleClass 0) = none := by rw [hring]; rfl
  refine h.alloc rfl rfl rfl hsize hword rfl rfl rfl rfl rfl ?_
  show (List.range s.pool.numBanks).map (bankSize s.cfg (poolTotal s)) ++
    List.replicate s.pool.numScatterBufs s.cfg.scatterBufSize ++
    (((Machine.ringRegion (s.ring idleClass 0)).toList ++ [a]).map fun _ => ringSize s.cfg idleClass (poolTotal s)) = _
  rw [plannedSizes, hnone]
  simp

theorem addIdleRing_ring {hnd : Handle} :
    (addIdleRing a hnd s).ring idleClass 0 = ringRecord s.cfg (idleReq s) a hnd :=
  setRing_ring_same (by decide) (by decide) _ s

/-- The engine takes the ring in, and its region is on record from now on (R110, R143). -/
theorem Granting.registered {hnd : Handle} (h : Granting [a] total s0 s es) (hs : Sound s) (hc : SetupCmd s)
    (hp : s.seq.pos = .ringRegister (idleReq s) a) :
    Granting [] total s0 (addIdleRing a hnd (afterRegister (idleReq s) (idleParams a s) hnd e s))
      (es ++ [⟨.seq, .ringRegister idleClass 0 0 (idleParams a s) (some hnd)⟩]) := by
  obtain ⟨-, -, ⟨hring, -⟩, -, hword⟩ := hs.ringSetup_at hc (.inr ⟨a, hp⟩)
  have hnone : Machine.ringRegion (s.ring idleClass 0) = none := by rw [hring]; rfl
  have hnew : (addIdleRing a hnd (afterRegister (idleReq s) (idleParams a s) hnd e s)).ring idleClass 0 =
    ringRecord s.cfg (idleReq s) a hnd := addIdleRing_ring
  have hregion : Machine.ringRegion (ringRecord s.cfg (idleReq s) a hnd) = some a := rfl
  have hold := h.engReg
  rw [hring] at hold
  refine ⟨h.trail.spare rfl rfl (h.trail.rings.setIdle rfl) ⟨rfl, rfl⟩ (fun _ _ => rfl) ?_, h.planned,
    forall_snoc h.agreed rfl, ?_, ?_, ?_, ?_, fun _ => h.planned ▸ hword⟩
  · show (List.range s.pool.numBanks).map s.bankRegion ++ (List.range s.pool.numScatterBufs).map s.scatRegion ++
      (Machine.ringRegion ((addIdleRing a hnd (afterRegister (idleReq s) (idleParams a s) hnd e s)).ring idleClass 0)).toList ++
        [] = _
    rw [poolRegions, hnew, hregion, hnone]
    simp
  · rw [released_append, h.kept]
    rfl
  · rw [obtained_append]
    exact h.live.trans (by simp [obtained])
  · rw [requested_append, h.asked]
    show _ = (List.range s.pool.numBanks).map (bankSize s.cfg (poolTotal s)) ++
      List.replicate s.pool.numScatterBufs s.cfg.scatterBufSize ++
      (((Machine.ringRegion ((addIdleRing a hnd (afterRegister (idleReq s) (idleParams a s) hnd e s)).ring idleClass 0)).toList ++
        []).map fun _ => ringSize s.cfg idleClass (poolTotal s))
    rw [plannedSizes, hnew, hregion, hnone]
    simp [requested]
  · rw [hnew]
    show s.engReg ++ [hnd] = s0.engReg ++ [hnd]
    rw [hold]
    simp

/-- The entry written lies in a region that was obtained (R76, R157). -/
theorem Granting.link {slot desc : PAddr} {b : Nat} (h : Granting [] total s0 s es) (ha : a ∈ poolRegions s)
    (hlo : a.pa.toNat ≤ slot.toNat) (hhi : slot.toNat + idleEntrySize ≤ a.pa.toNat + a.size.toNat)
    (hby : t.bystanders = s.bystanders) (hhist : t.hist = s.hist ++ [⟨.seq, .setLinkAddr slot b desc⟩])
    (hledger : t.ledger = s.ledger)
    (hmem : t.mem = Memory.writeLe s.mem slot.toNat idleEntrySize (entryImage b desc)) :
    Granting [] total s0 t (es ++ [⟨.seq, .setLinkAddr slot b desc⟩]) := by
  refine h.spare hby hhist hledger ⟨rfl, rfl⟩ rfl rfl fun x hx => ?_
  have hregions := h.trail.regions
  rw [h.kept] at hregions
  have hout : outside x a := hx a (by rw [hregions]; simpa using ha)
  unfold outside at hout
  rw [hmem]
  exact Memory.read_writeLe_outside _ _ (by omega)

end

/-! ### The end of a setup that is refused -/

section
variable {total : Nat} {c : Err} {s0 s : State} {es : List Event} {op : PortOp} {e : Env}

theorem Broken.unwinds {u : State} (h : Broken total c [] s0 u es) (hop : u.seq.op = .linkPoolSetup)
    (ht : Sound (startUnwind c u)) : SetupPhase total s0 (startUnwind c u) :=
  .unwinding hop h (unwound_startUnwind ht)

/-- The first refusal of a setup. -/
theorem Building.refused (h : Building total s0 s es) (hr : Refused s op e) :
    Broken total (refusalCode op) [] s0 (record .seq op { s with env := e }) (es ++ [⟨.seq, op⟩]) := by
  have hgrant := h.granting
  rw [hr.ofBuild.2] at hgrant
  obtain ⟨hspares, hno⟩ : Spares op ∧ agreed op = false := by
    cases hr <;> exact ⟨⟨rfl, rfl⟩, rfl⟩
  exact ⟨hgrant.trail.spare rfl rfl (hgrant.trail.rings.of_rings rfl) hspares (fun _ _ => rfl) rfl, not_granted_snoc hno,
    failureCode_first hgrant.agreed hno, h.engIdle⟩

end

/-! ### One step -/

section
variable {total : Nat} {s0 s t : State} {es : List Event} {op : PortOp}

/-- A step that asks for nothing. -/
theorem Building.spare (h : Building total s0 s es) (hheld : s.seq.pos.held = []) (hc : SetupCmd t)
    (hpos : t.seq.pos.building = true) (hheld' : t.seq.pos.held = []) (hby : t.bystanders = s.bystanders)
    (hhist : t.hist = s.hist ++ [⟨.seq, op⟩]) (hledger : t.ledger = s.ledger) (hop : Spares op)
    (hask : requested [⟨.seq, op⟩] = []) (hagreed : agreed op = true) (hmem : t.mem = s.mem)
    (hidle : t.engIdle = s.engIdle) (hw : Written t (es ++ [⟨.seq, op⟩])) : SetupPhase total s0 t := by
  have hgrant := h.granting
  rw [hheld] at hgrant
  exact .building ⟨hheld' ▸ hgrant.spare hby hhist hledger hop hask hagreed (fun x _ => by rw [hmem]), hc, hpos,
    hidle.trans h.engIdle, hw⟩

/-- The next entry of the list in the ring. -/
theorem Building.linkRing {slot : PAddr} {b j : Nat} {p : Pos} (h : Building total s0 s es) (hs : Sound s)
    (hp : s.seq.pos = .setLink slot b j) (hp' : p.building = true) (hheld : p.held = [])
    (hw : Written (goto p (countEntry (afterLink slot b (descAddress s b j) s)))
      (es ++ [⟨.seq, .setLinkAddr slot b (descAddress s b j)⟩])) :
    SetupPhase total s0 (goto p (countEntry (afterLink slot b (descAddress s b j) s))) := by
  obtain ⟨hfill, hidle, hwalk, -, hslot⟩ := hs.setLink_at hp
  obtain ⟨hb, -⟩ := hs.ofSetup (by rw [hp]; rfl)
  have hlt := (Filling.mk hb h.command hfill.1).walk_lt hwalk
  obtain ⟨hlo, hhi⟩ := hidle.entry_inside hb hlt
  have hgrant := h.granting
  rw [hp] at hgrant
  have hregion : (s.ring idleClass 0).region ∈ poolRegions s := by
    refine List.mem_append_right _ ?_
    rw [ringRegion, if_pos hidle.1]
    exact List.mem_singleton_self _
  refine .building ⟨?_, h.command.keep rfl rfl rfl rfl rfl, hp', h.engIdle, hw⟩
  show Granting p.held _ _ _ _
  rw [hheld]
  refine Granting.link hgrant hregion ?_ ?_ bystanders_linked rfl ledger_linked rfl
  · rw [hslot]; exact hlo
  · rw [hslot]; exact hhi

/-- The next entry of the list in the scatter buffers. -/
theorem Building.linkScatter {b j : Nat} {p : Pos} {tail : Word} (h : Building total s0 s es) (hs : Sound s)
    (hp : s.seq.pos = .scatterLink b j) (hp' : p.building = true) (hheld : p.held = [])
    (hw : Written (goto p (countEntry { afterLink (scatterSlot s s.seq.cursor) b (descAddress s b j) s with
        pool := { s.pool with tailOffset := tail } }))
      (es ++ [⟨.seq, .setLinkAddr (scatterSlot s s.seq.cursor) b (descAddress s b j)⟩])) :
    SetupPhase total s0 (goto p (countEntry { afterLink (scatterSlot s s.seq.cursor) b (descAddress s b j) s with
      pool := { s.pool with tailOffset := tail } })) := by
  obtain ⟨⟨hnb, hpath, -⟩, hbufs, hwalk⟩ := hs.scatterLink_at hp
  obtain ⟨hb, -⟩ := hs.ofSetup (by rw [hp]; rfl)
  have hlt := (Filling.mk hb h.command hnb).walk_lt hwalk
  have hbuf := scatterBuf_lt h.command hpath hbufs hlt
  obtain ⟨hlo, hhi⟩ := scatterSlot_inside hb hbuf
  have hgrant := h.granting
  rw [hp] at hgrant
  have hregion : s.scatRegion (s.seq.cursor / entriesPerScatterBuf s.cfg) ∈ poolRegions s :=
    List.mem_append_left _ (List.mem_append_right _ (List.mem_map_of_mem (List.mem_range.mpr hbuf)))
  refine .building ⟨?_, h.command.keep rfl rfl rfl rfl rfl, hp', h.engIdle, hw⟩
  show Granting p.held _ _ _ _
  rw [hheld]
  exact Granting.link hgrant hregion hlo hhi bystanders_scatterLinked rfl ledger_scatterLinked rfl

/-- The last bank leaves the idle-list ring too large for a command word (log 13). -/
theorem Building.tooLarge {b : Nat} {a : Alloc} {e : Env} (h : Building total s0 s es) (hs : Sound s)
    (hp : s.seq.pos = .bankAlloc b)
    (ha : hostAllocCoherent (bankSize s.cfg (poolTotal s) b) s =
      (some a, afterAlloc (bankSize s.cfg (poolTotal s) b) a e s))
    (hpath : idlePathFor s.cfg (poolTotal s) = .inRing) (hsize : wordMax < ringSize s.cfg idleClass (poolTotal s)) :
    Broken total .configErr [] s0 (addBank b a (afterAlloc (bankSize s.cfg (poolTotal s) b) a e s))
      (es ++ [⟨.seq, .allocCoherent (bankSize s.cfg (poolTotal s) b) (some (a.va, a.pa))⟩]) := by
  have hgrant := h.granting
  rw [hp] at hgrant
  have hnew := Granting.bank hgrant hs hp ha
  have hcfg := cfg_of_bystanders h.granting.trail.bystanders
  rw [h.granting.planned, hcfg] at hpath hsize
  exact ⟨hnew.trail, fun hg => absurd (hg.2 hpath) (Nat.not_le_of_lt hsize), failureCode_agreed hnew.agreed, h.engIdle⟩

/-- The engine rejects the idle-list ring (R114). -/
theorem Building.rejected {a : Alloc} {e : Env} (h : Building total s0 s es) (hp : s.seq.pos = .ringRegister (idleReq s) a) :
    Broken total .regFail [a] s0
      (goto (.ringReject a) (record .seq (.ringRegister idleClass 0 0 (idleParams a s) none) { s with env := e }))
      (es ++ [⟨.seq, .ringRegister idleClass 0 0 (idleParams a s) none⟩]) := by
  have hgrant := h.granting
  rw [hp] at hgrant
  exact ⟨hgrant.trail.spare rfl rfl (hgrant.trail.rings.of_rings rfl) ⟨rfl, rfl⟩ (fun _ _ => rfl) rfl,
    not_granted_snoc rfl, failureCode_first hgrant.agreed rfl, h.engIdle⟩

/-- The region of the rejected ring is given back (R115). -/
theorem Broken.rejectFreed {a : Alloc} {c : Err} (h : Broken total c [a] s0 s es) :
    Broken total c [] s0 (afterFree a s) (es ++ [⟨.seq, .freeCoherent a⟩]) := by
  refine ⟨h.trail.free rfl rfl (h.trail.rings.of_rings rfl) rfl rfl, fun hg => h.refused hg.of_append, ?_, h.engIdle⟩
  rw [failureCode_of_agreed fun e he => by rw [List.mem_singleton.mp he]; rfl]
  exact h.code

theorem walk_position {p q : Pos} {b j : Nat} {f : Nat → Nat → Pos} (hf : ∀ x y, (f x y).building = true ∧ (f x y).held = [])
    (hq : q.building = true ∧ q.held = [])
    (hnext : (∃ b' j', nextDesc s b j = some (b', j') ∧ p = f b' j') ∨ nextDesc s b j = none ∧ p = q) :
    p.building = true ∧ p.held = [] := by
  obtain ⟨b', j', -, rfl⟩ | ⟨-, rfl⟩ := hnext
  · exact hf b' j'
  · exact hq

/-- A step while everything is granted. -/
theorem Building.step (h : Building total s0 s es) (hs : Sound s) (hstep : SetupStep s op t) (ht : Sound t) :
    SetupPhase total s0 t := by
  obtain ⟨hwritten, hpublished⟩ := h.written.step hs h.command hstep
  have hc := h.command
  have hgrant := h.granting
  cases hstep with
  | refused hr => exact (h.refused hr).unwinds hc.1 ht
  | tooLarge hp ha hpath hsize => exact (h.tooLarge hs hp ha hpath hsize).unwinds hc.1 ht
  | rejected hp => exact .rejecting rfl (hc.keep rfl rfl rfl rfl rfl) (h.rejected hp)
  | rejectFreed hp => exact absurd ((congrArg Pos.building hp).symm.trans h.position) Bool.false_ne_true
  | bank hp ha =>
    rw [hp] at hgrant
    obtain ⟨hbuild, hheld⟩ := afterBankPos_building s.cfg (poolTotal s) _
    refine .building ⟨?_, hc.keep rfl rfl rfl rfl rfl, hbuild, h.engIdle, hwritten (Pos.building_builds hbuild)⟩
    exact (congrArg (Granting · total s0 _ _) hheld).mpr ((Granting.bank hgrant hs hp ha).goto _)
  | scat hp ha =>
    rw [hp] at hgrant
    obtain ⟨hbuild, hheld⟩ := afterScatPos_building s.cfg (poolTotal s) _
    refine .building ⟨?_, hc.keep rfl rfl rfl rfl rfl, hbuild, h.engIdle, hwritten (Pos.building_builds hbuild)⟩
    exact (congrArg (Granting · total s0 _ _) hheld).mpr ((Granting.scat hgrant hs hp ha).goto _)
  | ringRegion hp ha =>
    rw [hp] at hgrant
    exact .building ⟨(Granting.ringRegion hgrant hs hc hp ha).goto _, hc.keep rfl rfl rfl rfl rfl, rfl, h.engIdle, hwritten rfl⟩
  | registered hp =>
    rw [hp] at hgrant
    exact .building ⟨(Granting.registered hgrant hs hc hp).goto _, hc.keep rfl rfl rfl rfl rfl, rfl, h.engIdle, hwritten rfl⟩
  | opened hp hop =>
    subst hop
    exact h.spare (by rw [hp]; rfl) (hc.keep rfl rfl rfl rfl rfl) rfl rfl rfl rfl rfl ⟨rfl, rfl⟩ rfl rfl rfl rfl
      (hwritten rfl)
  | slot hp hop =>
    subst hop
    exact h.spare (by rw [hp]; rfl) (hc.keep rfl rfl rfl rfl rfl) rfl rfl rfl rfl rfl ⟨rfl, rfl⟩ rfl rfl rfl rfl
      (hwritten rfl)
  | closed hp hop =>
    subst hop
    exact h.spare (by rw [hp]; rfl) (hc.keep rfl rfl rfl rfl rfl) rfl rfl rfl rfl rfl ⟨rfl, rfl⟩ rfl rfl rfl rfl
      (hwritten rfl)
  | link hp hnext =>
    obtain ⟨hbuild, hheld⟩ := walk_position (f := .getNext) (fun _ _ => ⟨rfl, rfl⟩) ⟨rfl, rfl⟩ hnext
    exact h.linkRing hs hp hbuild hheld (hwritten (Pos.building_builds hbuild))
  | scatterLink hp hnext =>
    obtain ⟨hbuild, hheld⟩ := walk_position (f := .scatterLink) (fun _ _ => ⟨rfl, rfl⟩) ⟨rfl, rfl⟩ hnext
    exact h.linkScatter hs hp hbuild hheld (hwritten (Pos.building_builds hbuild))
  | published hp =>
    obtain ⟨⟨-, -, hbufs⟩, -, hprod⟩ := hs.publishRing_at hp
    obtain ⟨hby, hhist, hmem⟩ := finishPool_frame (s := s)
    rw [hp] at hgrant
    refine .done ⟨Granting.spare hgrant hby hhist (ledger_published hbufs) ⟨rfl, rfl⟩ rfl rfl fun _ _ => by rw [hmem],
      hpublished rfl, rfl, rfl, rfl, rfl, rfl, rfl, fun _ => ?_⟩
    rw [hgrant.planned] at hprod
    exact hprod
  | publishedScatter hp =>
    obtain ⟨⟨-, hpath, -⟩, -⟩ := hs.publishScatter_at hp
    obtain ⟨hby, hhist, hmem⟩ := finishPool_frame (s := s)
    rw [hp] at hgrant
    refine .done ⟨Granting.spare hgrant hby hhist ledger_publishedScatter ⟨rfl, rfl⟩ rfl rfl fun _ _ => by rw [hmem],
      hpublished rfl, rfl, rfl, rfl, rfl, rfl, rfl, fun hring => ?_⟩
    have hring' : idlePathFor s.cfg (poolTotal s) = .inRing := hgrant.planned ▸ hring
    rw [hpath] at hring'
    cases hring'

end

end Sys2Proof.Machine

namespace Sys2Proof.Machine

/-! ## A whole run of `LINK_POOL_SETUP` (P4, P8) -/

/-- The setup was refused something and has undone everything (R154, R155). -/
structure Failed (total : Nat) (s0 t : State) (es : List Event) : Prop where
  bystanders : t.bystanders = s0.bystanders
  hist : t.hist = s0.hist ++ es
  agent : ∀ e ∈ es, e.agent = .seq
  rings : SameOtherRings s0 t
  mem : ∀ x, (∀ a ∈ obtained es, outside x a) → Memory.read t.mem x = Memory.read s0.mem x
  refused : ¬Granted s0.cfg total es
  seq : t.seq = {}
  err : t.err = failureCode es
  res0 : t.res0 = 0
  res1 : t.res1 = 0
  pool : t.pool = {}
  engIdle : t.engIdle = s0.engIdle
  freed : released es = (obtained es).reverse

section
variable {total : Nat} {s0 s t : State}

theorem Unwound.not_build {u : State} {c : Err} (h : Unwound u c s) : s.seq.pos.ofBuild = false := by
  obtain ⟨hp, -⟩ | ⟨hq, -⟩ := h.stage
  · cases hq : s.seq.pos <;> rw [hq] at hp
    case ringUnregister | ringFree | unwindScatter | unwindBank => rfl
    all_goals cases hp
  · rw [hq]
    rfl

/-- The step after a rejected registration (R115). -/
theorem posStep_rejectFreed {a : Alloc} (hs : Sound s) (hc : SetupCmd s) (hp : s.seq.pos = .ringReject a) :
    posStep s = .next (startUnwind .regFail (afterFree a s)) := by
  obtain ⟨t, ht⟩ := posStep_answers hs
  rw [ht]
  unfold posStep at ht
  rw [hp] at ht
  obtain ⟨u, hu, ht⟩ := andThen_next ht
  obtain ⟨-, rfl⟩ := hostFreeCoherent_next hu
  have hfail := ringFail_of_setup .regFail (s := afterFree a s) hc.1
  cases ht
  exact congrArg _ hfail

/-- Until it stops, a setup takes a step towards its end. -/
theorem SetupPhase.advances (h : SetupPhase total s0 s) (hs : Sound s) (hgo : seqStopped s = false) :
    ∃ t, seqStep s = .next t ∧ (Sound t ∧ SetupPhase total s0 t) ∧ poolLength t < poolLength s := by
  cases h with
  | building h =>
    have hbuild := Pos.building_builds h.position
    obtain ⟨op, t, ht, hstep⟩ := posStep_setupStep hs h.command hbuild
    have hseq : seqStep s = .next t := (not_stopped_of_ofMemory (Pos.ofMemory_of_ofBuild hbuild)).2.trans ht
    have hsound := seqStep_sound hs hseq
    exact ⟨t, hseq, ⟨hsound, h.step hs hstep hsound⟩, hstep.length_lt hs h.command hsound⟩
  | rejecting hp hc h =>
    have hseq : seqStep s = _ :=
      (not_stopped_of_ofMemory (by rw [hp]; rfl)).2.trans (posStep_rejectFreed hs hc hp)
    have hsound := seqStep_sound hs hseq
    exact ⟨_, hseq, ⟨hsound, h.rejectFreed.unwinds hc.1 hsound⟩, (SetupStep.rejectFreed hp).length_lt hs hc hsound⟩
  | unwinding hop h hu =>
    obtain ⟨hp, -⟩ | ⟨hq, -⟩ := hu.stage
    · obtain ⟨t, hseq, hunwound, hlt⟩ := hu.advances (by rw [poolOp, hop]) hp
      rw [← poolLength_of_not_build hu.not_build, ← poolLength_of_not_build hunwound.not_build] at hlt
      exact ⟨t, hseq, ⟨hunwound.sound, .unwinding hop h hunwound⟩, hlt⟩
    · rw [seqStopped, hq] at hgo
      cases hgo
  | done h =>
    rw [seqStopped, h.seq] at hgo
    cases hgo

theorem SameOtherRings.trans (h : SameOtherRings s0 s) (h' : SameOtherRings s t) : SameOtherRings s0 t :=
  fun k hk i hi hne => (h' k hk i hi hne).trans (h k hk i hi hne)

/-- What is left when everything of a broken setup is given back. -/
theorem Broken.failed {u : State} {c : Err} {es : List Event} (h : Broken total c [] s0 u es)
    (hop : u.seq.op = .linkPoolSetup) (hend : Unwound.Ended u c t) :
    Failed total s0 t (es ++ unwindEvents none u) := by
  obtain ⟨⟨hby, hhist, hagent, hrings, hmem, hregions⟩, hrefused, hcode, hidle⟩ := h
  obtain ⟨hnone, hquiet⟩ := unwindEvents_quiet u
  have hobtained : obtained (es ++ unwindEvents none u) = obtained es := by
    rw [obtained_append, hnone, List.append_nil]
  refine ⟨hend.bystanders.trans hby, ?_, ?_, hrings.trans hend.rings, ?_, fun hg => hrefused hg.of_append, hend.seq, ?_,
    hend.res0, hend.res1, hend.pool, ?_, ?_⟩
  · rw [hend.hist, hhist, List.append_assoc]
  · intro e he
    obtain he | he := List.mem_append.mp he
    · exact hagent e he
    · exact (hquiet e he).1
  · rw [hobtained, hend.mem]
    exact hmem
  · rw [hend.err, failureCode_of_agreed fun e he => (hquiet e he).2]
    exact hcode.symm
  · rw [hend.engIdle, idleAfterUnwind, hop]
    exact hidle
  · rw [hobtained, released_append, released_unwindEvents, hregions]
    simp

/-- Where a setup stops it succeeded or failed. -/
theorem SetupPhase.stopped (h : SetupPhase total s0 t) (hstop : seqStopped t = true) :
    ∃ es, Succeeded total s0 t es ∨ Failed total s0 t es := by
  cases h with
  | building h =>
    have hgo := (not_stopped_of_ofMemory (Pos.ofMemory_of_ofBuild (Pos.building_builds h.position))).1
    exact absurd (hgo.symm.trans hstop) Bool.false_ne_true
  | rejecting hp => exact absurd ((not_stopped_of_ofMemory (by rw [hp]; rfl)).1.symm.trans hstop) Bool.false_ne_true
  | unwinding hop h hu => exact ⟨_, .inr (h.failed hop (hu.ended hstop))⟩
  | done h => exact ⟨_, .inl h⟩

end

/-- The state in which a planned setup begins (R130). -/
def planned (total : Nat) (s : State) : State :=
  goto (.bankAlloc 0)
    { setOp .linkPoolSetup s with pool := { s.pool with totalLinkDescs := BitVec.ofNat 32 total } }

theorem beginLinkPoolSetup_planned {s : State} {total : Nat} (hv : s.pool.valid = false)
    (hplan : planTotal s.cfg (scalar s) = some total) : beginLinkPoolSetup s = planned total s := by
  unfold beginLinkPoolSetup
  rw [if_neg (by rw [hv]; decide), hplan]
  rfl

/-- Nothing is done yet. -/
theorem building_planned {s : State} {total : Nat} (h : Begun s) (hv : s.pool.valid = false)
    (hplan : planTotal s.cfg (scalar s) = some total) : Building total s (planned total s) [] := by
  obtain ⟨-, hmax, -⟩ := planTotal_some hplan
  have htotal : poolTotal (planned total s) = total := size_toNat (hmax.trans (by decide))
  have hrest := h.rest
  unfold PoolAtRest at hrest
  rw [if_neg (by rw [hv]; decide)] at hrest
  obtain ⟨hpool, hring, -⟩ := hrest
  have hring' : (planned total s).ring idleClass 0 = {} := hring
  have hnb : (planned total s).pool.numBanks = 0 := congrArg Pool.numBanks hpool
  have hns : (planned total s).pool.numScatterBufs = 0 := congrArg Pool.numScatterBufs hpool
  have hregions : poolRegions (planned total s) = [] := by rw [poolRegions, hnb, hns, hring']; rfl
  have hsizes : plannedSizes [] (planned total s) = [] := by rw [plannedSizes, hnb, hns, hring']; rfl
  refine ⟨⟨⟨rfl, (List.append_nil _).symm, nofun, .refl s, fun _ _ => rfl, ?_⟩, htotal, nofun, rfl, (List.append_nil _).symm,
    hsizes.symm, ?_, ?_⟩, ⟨rfl, hv, htotal.symm ▸ hplan⟩, rfl, rfl, ⟨?_, ?_, nofun⟩⟩
  · rw [hregions]
    rfl
  · rw [hring']
    exact (List.append_nil _).symm
  · rw [hring']
    nofun
  · rw [show (planned total s).seq.cursor = 0 from h.cursor]
    rfl
  · rw [show (planned total s).seq.cursor = 0 from h.cursor]
    nofun

/-- A planned setup runs to its stop, with whatever else its steps keep. -/
theorem exec_linkPoolSetup_stops {s : State} {total : Nat} (hs : Consistent s) (hp : s.seq.pos = .start)
    (hv : s.pool.valid = false) (hplan : planTotal s.cfg (scalar s) = some total) {P : State → Prop}
    (hstart : P (planned total s))
    (hstep : ∀ u, Sound u → SetupPhase total s u → P u → seqStopped u = false →
      ∃ t, seqStep u = .next t ∧ (Sound t ∧ SetupPhase total s t ∧ P t) ∧ poolLength t < poolLength u) :
    ∃ t, exec .linkPoolSetup s = .next t ∧ Sound t ∧ SetupPhase total s t ∧ P t ∧ seqStopped t = true := by
  have hbegun := ((consistent_iff s).mp hs).2.begun hp
  have hbegin := beginLinkPoolSetup_planned hv hplan
  have hsound : Sound (planned total s) := hbegin ▸ beginLinkPoolSetup_sound hbegun
  have hlen : poolLength (planned total s) ≤ seqFuel := by
    obtain ⟨hbanks, hbufs, -⟩ := hsound.books.tables
    have hl := poolLimits hsound.books.valid
    have := hl.banks
    have := hl.bufs
    have := poolLength_le (planned total s)
    unfold seqFuel
    omega
  obtain ⟨t, hrun, ⟨ht, hphase, hP⟩, hstop⟩ := runSeq_ends (fun u => Sound u ∧ SetupPhase total s u ∧ P u) poolLength
    (fun u ⟨hu, hphase, hP⟩ hgo => hstep u hu hphase hP hgo) seqFuel _
    ⟨hsound, .building (building_planned hbegun hv hplan), hstart⟩ hlen
  refine ⟨t, ?_, ht, hphase, hP, hstop⟩
  rw [exec_linkPoolSetup_start hp, hbegin]
  exact hrun

/-- A planned setup ends, and either everything was granted or everything is undone. -/
theorem exec_linkPoolSetup_ends {s : State} {m total : Nat} (hs : Consistent s) (hacc : Accepted s m)
    (hv : s.pool.valid = false) (hplan : planTotal s.cfg m = some total) :
    ∃ t es, exec .linkPoolSetup s = .next t ∧ Sound t ∧ (Succeeded total s t es ∨ Failed total s t es) := by
  obtain ⟨hp, -, -, rfl⟩ := hacc
  obtain ⟨t, hexec, ht, hphase, -, hstop⟩ := exec_linkPoolSetup_stops hs hp hv hplan (P := fun _ => True) trivial
    fun u hu hphase _ hgo => by simpa using hphase.advances hu hgo
  obtain ⟨es, hend⟩ := hphase.stopped hstop
  exact ⟨t, es, hexec, ht, hend⟩

end Sys2Proof.Machine

namespace Sys2Proof.Machine

/-! ## What the end of a setup says (P3, P4, P8) -/

/-! ### Tables that agree at every place -/

theorem SameOtherRings.rings_eq {s t : State} (h : SameOtherRings s t) (hidle : t.ring idleClass 0 = s.ring idleClass 0) :
    t.rings = s.rings := by
  have hring (u : State) {p : Nat} (hp : p < 128) : u.ring (p / 8) (p % 8) = u.rings[p] := by
    have hplace : ringPlace (p / 8) (p % 8) = p := by
      rw [ringPlace, if_pos (Nat.mod_lt p (by decide))]
      omega
    simp [State.ring, hplace, hp]
  refine Vector.ext fun p hp => ?_
  rw [← hring t hp, ← hring s hp]
  by_cases hne : p / 8 = idleClass ∧ p % 8 = 0
  · rw [hne.1, hne.2]
    exact hidle
  · exact h _ (by omega) _ (by omega) hne

theorem banks_eq {s t : State} (h : ∀ b < 256, t.bank b = s.bank b) : t.banks = s.banks :=
  Vector.ext fun b hb => by simpa [State.bank, hb] using h b hb

theorem scats_eq {s t : State} (h : ∀ n < 256, t.scat n = s.scat n) : t.scats = s.scats :=
  Vector.ext fun n hn => by simpa [State.scat, hn] using h n hn

/-- The same tables, and so the same regions and handles. -/
theorem Books.same_records {s t : State} (hs : Books [] none s) (ht : Books [] none t) (hcfg : t.cfg = s.cfg)
    (hrings : t.rings = s.rings) (hbanks : t.banks = s.banks) (hscats : t.scats = s.scats) (hpool : t.pool = s.pool) :
    t.live.Perm s.live ∧ t.engReg.Perm s.engReg := by
  have hregions : recordedRegions t = recordedRegions s := by
    unfold recordedRegions State.ring State.bank State.scat
    rw [hcfg, hrings, hbanks, hscats, hpool]
  have hhandles : recordedHandle none t = recordedHandle none s := by
    unfold recordedHandle State.ring
    rw [hrings]
  exact ⟨(hregions ▸ ht.regions).trans hs.regions.symm, (hhandles ▸ ht.handles).trans hs.handles.symm⟩

/-! ### A failed setup -/

section
variable {total : Nat} {s t : State} {es : List Event}

/-- A failed setup leaves every record as it was (R155, R156). -/
theorem Failed.records (h : Failed total s t es) (hb : Books [] none s) (hpool : s.pool = {}) (hno : NoIdleRing s)
    (ht : Sound t) :
    t.banks = s.banks ∧ t.scats = s.scats ∧ t.rings = s.rings ∧ t.producer = s.producer ∧ t.live.Perm s.live ∧
      t.engReg.Perm s.engReg := by
  obtain ⟨htb, ⟨hring, hprod⟩, hbanks, hscats⟩ := ht.no_pool h.seq h.pool
  obtain ⟨-, -, hbanks0, hscats0⟩ := hb.tables
  rw [hpool] at hbanks0 hscats0
  have hbankeq : t.banks = s.banks := banks_eq fun b h256 =>
    (hbanks b h256).trans ((if_neg (Nat.not_lt_zero b)).mp (hbanks0 b h256)).symm
  have hscateq : t.scats = s.scats := scats_eq fun n h256 =>
    (hscats n h256).trans ((if_neg (Nat.not_lt_zero n)).mp (hscats0 n h256)).symm
  have hringeq : t.rings = s.rings := h.rings.rings_eq (hring.trans hno.1.symm)
  obtain ⟨hlive, heng⟩ := hb.same_records htb (cfg_of_bystanders h.bystanders) hringeq hbankeq hscateq
    (h.pool.trans hpool.symm)
  exact ⟨hbankeq, hscateq, hringeq, hprod.trans hno.2.symm, hlive, heng⟩

/-! ### A successful setup -/

theorem Succeeded.rest (h : Succeeded total s t es) (ht : Sound t) : Books [] none t ∧ ValidPool t := by
  obtain ⟨hb, -, hplace⟩ := ht
  rw [h.seq] at hb
  have hrest := hplace.rest (by unfold underWay; rw [h.seq])
  unfold PoolAtRest at hrest
  rw [if_pos h.valid] at hrest
  exact ⟨hb, hrest⟩

/-- The pool has exactly one representation of its idle list (R40, R43). -/
theorem Succeeded.paths (h : Succeeded total s t es) (ht : Sound t) :
    t.pool.numBanks = banksNeeded s.cfg total ∧ t.pool.idlePath = idlePathFor s.cfg total ∧
      (idlePathFor s.cfg total = .inRing ∧ IdleRing t ∧ t.pool.numScatterBufs = 0 ∨
        idlePathFor s.cfg total = .scatter ∧ NoIdleRing t ∧
          t.pool.numScatterBufs = scatterBufsNeeded s.cfg total) := by
  obtain ⟨-, -, -, hnb, hpath, hrepr⟩ := h.rest ht
  rw [h.granting.planned, cfg_of_bystanders h.granting.trail.bystanders] at hnb hpath hrepr
  refine ⟨hnb, hpath, ?_⟩
  rw [hpath] at hrepr
  cases hp : idlePathFor s.cfg total with
  | inRing =>
    rw [hp] at hrepr
    obtain ⟨hring, hbufs, -⟩ := hrepr
    exact .inl ⟨rfl, hring, hbufs⟩
  | scatter =>
    rw [hp] at hrepr
    obtain ⟨hno, hbufs, -⟩ := hrepr
    exact .inr ⟨rfl, hno, hbufs⟩

/-- A setup that succeeded was refused nothing. -/
theorem Succeeded.granted (h : Succeeded total s t es) (ht : Sound t) : Granted s.cfg total es := by
  refine ⟨h.granting.agreed, fun hp => ?_⟩
  obtain ⟨-, -, ⟨-, hring, -⟩ | ⟨hp', -⟩⟩ := h.paths ht
  · have hfits := h.granting.ringFits hring.1
    rwa [cfg_of_bystanders h.granting.trail.bystanders] at hfits
  · rw [hp] at hp'
    cases hp'

/-- The sizes asked for are those of the plan (R136, R143, R148). -/
theorem Succeeded.requested_eq (h : Succeeded total s t es) (ht : Sound t) :
    requested es = (List.range (banksNeeded s.cfg total)).map (bankSize s.cfg total) ++
      (match idlePathFor s.cfg total with
        | .inRing => [ringSize s.cfg idleClass total]
        | .scatter => List.replicate (scatterBufsNeeded s.cfg total) s.cfg.scatterBufSize) := by
  obtain ⟨hnb, -, hpaths⟩ := h.paths ht
  rw [h.granting.asked, plannedSizes, h.granting.planned, cfg_of_bystanders h.granting.trail.bystanders, hnb]
  obtain ⟨hp, hring, hbufs⟩ | ⟨hp, hno, hbufs⟩ := hpaths
  · have hregion : ringRegion (t.ring idleClass 0) = some (t.ring idleClass 0).region := if_pos hring.1
    rw [hp, hbufs, hregion]
    simp
  · have hregion : ringRegion (t.ring idleClass 0) = none := by rw [hno.1]; rfl
    rw [hp, hbufs, hregion]
    simp

/-- The ring's handle is registered on the in-ring path; else the engine and the rings are as they were (R143, R156). -/
theorem Succeeded.representation (h : Succeeded total s t es) (hno : NoIdleRing s) (ht : Sound t) :
    match idlePathFor s.cfg total with
    | .inRing =>
      t.engReg = s.engReg ++ [(t.ring idleClass 0).hnd] ∧ t.producer.wrShadow = total ∧ t.producer.wrHw = total ∧
        t.producer.rd = 0 ∧ t.producer.bracketOpen = false
    | .scatter => t.engReg = s.engReg ∧ t.rings = s.rings ∧ t.producer = s.producer := by
  obtain ⟨-, -, ⟨hp, hring, -⟩ | ⟨hp, hno', -⟩⟩ := h.paths ht
  · have hprod := h.producer (by rw [cfg_of_bystanders h.granting.trail.bystanders]; exact hp)
    have heng := h.granting.engReg
    rw [if_pos hring.1] at heng
    rw [hp, hprod]
    exact ⟨heng, rfl, rfl, rfl, rfl⟩
  · have heng := h.granting.engReg
    rw [hno'.1] at heng
    rw [hp]
    exact ⟨heng.trans (List.append_nil _), h.granting.trail.rings.rings_eq (hno'.1.trans hno.1.symm),
      hno'.2.trans hno.2.symm⟩

end

theorem eq_of_pool_bystanders {s t : State} {es : List Event} (h : t.bystanders = s.bystanders) (hseq : t.seq = {})
    (hhist : t.hist = s.hist ++ es) :
    t = { s with
      err := t.err, res0 := t.res0, res1 := t.res1, seq := {}, rings := t.rings, producer := t.producer,
      banks := t.banks, scats := t.scats, pool := t.pool, live := t.live, engReg := t.engReg, engIdle := t.engIdle,
      hist := s.hist ++ es, mem := t.mem, env := t.env } := by
  rw [← hhist, ← hseq]
  exact eq_of_bystanders h

/-- Without a pool a consistent machine has no records of one (R40). -/
theorem Begun.no_pool {s : State} (h : Begun s) (hv : s.pool.valid = false) : s.pool = {} ∧ NoIdleRing s := by
  have hrest := h.rest
  unfold PoolAtRest at hrest
  rwa [if_neg (by rw [hv]; decide)] at hrest

/-- Settles O25: a setup ends granted or undone, and `Succeeded` and `Failed` say what each leaves. -/
theorem poolSetupOutcome : Obligations.PoolSetupOutcome := by
  intro s m total hs hacc hv hplan
  obtain ⟨t, es, hexec, ht, hend⟩ := exec_linkPoolSetup_ends hs hacc hv hplan
  have hbegun := ((consistent_iff s).mp hs).2.begun hacc.1
  obtain ⟨hpool, hno⟩ := hbegun.no_pool hv
  obtain ⟨-, hmax, -⟩ := planTotal_some hplan
  refine ⟨t, es, hexec, ?_⟩
  obtain h | h := hend
  · have hgranted := h.granted ht
    obtain ⟨hbooks, hvalid⟩ := h.rest ht
    obtain ⟨hnb, -⟩ := h.paths ht
    obtain ⟨⟨hby, hhist, hagent, hrings, hmem, -⟩, hplanned, -, hkept, hlive, -⟩ := h.granting
    refine ⟨eq_of_pool_bystanders hby h.seq hhist, hagent, hrings, hmem, fun _ => ?_, fun hno => absurd hgranted hno⟩
    have htotal : t.pool.totalLinkDescs = BitVec.ofNat 32 total :=
      BitVec.eq_of_toNat_eq (Eq.trans hplanned (size_toNat (hmax.trans (by decide))).symm)
    exact ⟨h.err, h.res0.trans htotal, hnb ▸ h.res1, h.valid, hplanned, hvalid, hbooks.tables, h.engIdle,
      h.requested_eq ht, hkept, hlive, h.representation hno ht⟩
  · obtain ⟨hbanks, hscats, hrings, hprod, hlive, heng⟩ := h.records hbegun.books hpool hno ht
    exact ⟨eq_of_pool_bystanders h.bystanders h.seq h.hist, h.agent, h.rings, h.mem, fun hg => absurd hg h.refused,
      fun _ => ⟨h.err, h.res0, h.res1, h.pool, hbanks, hscats, hrings, hprod, h.engIdle, hlive, heng, h.freed⟩⟩

end Sys2Proof.Machine

namespace Sys2Proof.Machine

/-! ## Each descriptor once (P3) -/

section
variable {s : State} {b j : Nat}

/-- A descriptor lies in its bank's region (R39, R142). -/
theorem descAddress_inside (hb : Books [] none s) (hbank : b < s.pool.numBanks) (hj : j < (s.bank b).count.toNat) :
    (descAddress s b j).toNat = (s.bank b).basePa.toNat + j * s.cfg.linkDescSize ∧
      (s.bankRegion b).pa.toNat ≤ (descAddress s b j).toNat ∧
      (descAddress s b j).toNat < (s.bankRegion b).pa.toNat + (s.bankRegion b).size.toNat := by
  have hl := poolLimits hb.valid
  obtain ⟨hmax, -, hbanks, -⟩ := hb.tables
  have hok := hbanks b ((hbank.trans_le hmax).trans_le hl.banks)
  rw [if_pos hbank] at hok
  obtain ⟨hcount, -, -, -, hlo, hhi, hfit⟩ := hok
  have hroom : (j + 1) * s.cfg.linkDescSize ≤ bankCount s.cfg (poolTotal s) b * s.cfg.linkDescSize :=
    Nat.mul_le_mul_right _ (hcount ▸ hj)
  have hpos := hl.descPos
  rw [Nat.succ_mul] at hroom
  have hvalue : (descAddress s b j).toNat = (s.bank b).basePa.toNat + j * s.cfg.linkDescSize := by
    unfold addressSpace at hfit
    rw [descAddress, BitVec.toNat_ofNat, Nat.mod_eq_of_lt (by omega)]
  refine ⟨hvalue, ?_, ?_⟩
  · rw [hvalue]
    exact hlo.trans (Nat.le_add_right _ _)
  · show _ < (s.bank b).rawPa.toNat + (s.bank b).size.toNat
    omega

theorem bankDescs_nodup (hb : Books [] none s) (hbank : b < s.pool.numBanks) :
    ((List.range (s.bank b).count.toNat).map (descAddress s b)).Nodup := by
  refine List.Nodup.map_on (fun i hi j hj heq => ?_) List.nodup_range
  obtain ⟨hi, -⟩ := descAddress_inside hb hbank (List.mem_range.mp hi)
  obtain ⟨hj, -⟩ := descAddress_inside hb hbank (List.mem_range.mp hj)
  rw [heq, hj] at hi
  exact Nat.eq_of_mul_eq_mul_right (poolLimits hb.valid).descPos (Nat.add_left_cancel hi).symm

/-- Descriptors of different banks differ, because the banks' regions do not meet (R210). -/
theorem descAddress_ne (hb : Books [] none s) {c i : Nat} (hbc : b < c) (hc : c < s.pool.numBanks)
    (hi : i < (s.bank c).count.toNat) (hj : j < (s.bank b).count.toNat) : descAddress s b j ≠ descAddress s c i := by
  intro heq
  obtain ⟨-, hlo, hhi⟩ := descAddress_inside hb (hbc.trans hc) hj
  obtain ⟨-, hlo', hhi'⟩ := descAddress_inside hb hc hi
  have hsides := (Bool.or_eq_true _ _).mp (hb.banks_apart hbc hc)
  rw [decide_eq_true_eq, decide_eq_true_eq] at hsides
  rw [heq] at hlo hhi
  omega

theorem descWalk_nodup (hb : Books [] none s) : ((descWalk s).map Prod.snd).Nodup := by
  have hwalk : (descWalk s).map Prod.snd =
      (List.range s.pool.numBanks).flatMap fun b => (List.range (s.bank b).count.toNat).map (descAddress s b) := by
    rw [descWalk, List.map_flatMap]
    simp only [List.map_map]
    rfl
  rw [hwalk, List.nodup_flatMap]
  refine ⟨fun b hbank => bankDescs_nodup hb (List.mem_range.mp hbank), ?_⟩
  refine List.pairwise_lt_range.imp_of_mem fun {b c} _ hc hbc => List.disjoint_left.mpr fun x hx hx' => ?_
  obtain ⟨j, hj, rfl⟩ := List.mem_map.mp hx
  obtain ⟨i, hi, heq⟩ := List.mem_map.mp hx'
  exact descAddress_ne hb hbc (List.mem_range.mp hc) (List.mem_range.mp hi) (List.mem_range.mp hj) heq.symm

end

/-- The list that was built is the one that the pool's record names (R76). -/
theorem entrySlot_eq_listSlot {t : State} (hpath : t.pool.idlePath = idlePathFor t.cfg (poolTotal t)) :
    entrySlot t = listSlot t := by
  funext n
  rw [entrySlot, listSlot, hpath] <;> rfl

/-- Settles O26: `Published` at the end of a setup, in the words of the statement. -/
theorem poolSetupPublishesEveryDescriptor : Obligations.PoolSetupPublishesEveryDescriptor := by
  intro s t m total es hs hacc hv hplan hexec herr hhist
  obtain ⟨t', es', hexec', ht, hend⟩ := exec_linkPoolSetup_ends hs hacc hv hplan
  obtain rfl : t' = t := by
    rw [hexec] at hexec'
    cases hexec'
    rfl
  have h : Succeeded total s t' es' := hend.resolve_right fun h => failureCode_ne_ok es' (h.err.symm.trans herr)
  obtain rfl : es = es' := List.append_cancel_left (hhist.symm.trans h.granting.trail.hist)
  obtain ⟨hbooks, -, -, -, hpath, -⟩ := h.rest ht
  have hslot := entrySlot_eq_listSlot hpath
  refine ⟨?_, h.published.length.trans h.granting.planned, descWalk_nodup hbooks, fun n b d hd => ?_⟩
  · rw [h.published.entries, hslot]
    rfl
  · rw [hslot]
    exact h.published.images n b d hd

end Sys2Proof.Machine

namespace Sys2Proof.Machine

/-! ## A setup with the reference host and engine (R227) -/

/-- The reference host and engine agree to everything, and `room` bytes above the allocator's cursor are free. -/
def Obliging (room : Nat) (s : State) : Prop :=
  ∃ r, s.env.reference = some r ∧ r.alloc = [] ∧ r.engine = [] ∧ (∀ a ∈ s.live, a.pa.toNat + a.size.toNat ≤ r.cursor) ∧
    r.cursor + room ≤ addressSpace

section
variable {room size : Nat} {s t : State}

theorem Obliging.keep {room' : Nat} (h : Obliging room s) (hle : room' ≤ room) (henv : t.env = s.env)
    (hlive : t.live = s.live) : Obliging room' t := by
  obtain ⟨r, href, halloc, hengine, hbelow, hroom⟩ := h
  exact ⟨r, henv ▸ href, halloc, hengine, hlive ▸ hbelow, (Nat.add_le_add_left hle _).trans hroom⟩

/-- A request for which there is room is granted, and uses up to 12 bytes more (R227). -/
theorem Obliging.alloc (h : Obliging room s) (hle : size + 12 ≤ room) (hword : size ≤ wordMax) :
    (hostAllocCoherent size s).1 ≠ none ∧ Obliging (room - (size + 12)) (hostAllocCoherent size s).2 := by
  obtain ⟨r, href, halloc, hengine, hbelow, hroom⟩ := h
  have hspace : r.cursor + size ≤ addressSpace := by omega
  have hpa : (BitVec.ofNat 40 r.cursor).toNat = r.cursor := by
    unfold addressSpace at hroom
    rw [BitVec.toNat_ofNat, Nat.mod_eq_of_lt (by omega)]
  have hdraw : drawAlloc size s =
      (some (BitVec.ofNat 64 (0xFFFF000000000000 + r.cursor), BitVec.ofNat 40 r.cursor),
        setRef { r with alloc := [], cursor := alignUp (r.cursor + size) 8 + 4 } s) := by
    simp [drawAlloc, href, halloc, headOr, hspace]
  have hadm : allocAdmissible s size (BitVec.ofNat 64 (0xFFFF000000000000 + r.cursor), BitVec.ofNat 40 r.cursor) = true := by
    simp only [allocAdmissible, apart, hpa, Bool.and_eq_true, Bool.or_eq_true, decide_eq_true_eq, List.all_eq_true]
    exact ⟨hspace, fun a ha => .inr (hbelow a ha)⟩
  unfold hostAllocCoherent
  rw [hdraw]
  dsimp only
  rw [Option.filter_some, if_pos hadm]
  refine ⟨nofun, _, rfl, rfl, hengine, fun a ha => ?_, ?_⟩
  · have hgrown : r.cursor + size ≤ alignUp (r.cursor + size) 8 := le_alignUp (by decide) _
    show _ ≤ alignUp (r.cursor + size) 8 + 4
    obtain ha | ha := List.mem_append.mp ha
    · have := hbelow a ha
      omega
    · obtain rfl := List.mem_singleton.mp ha
      show (BitVec.ofNat 40 r.cursor).toNat + (BitVec.ofNat 32 size).toNat ≤ _
      rw [hpa, size_toNat hword]
      omega
  · have hgrown := alignUp_le_add (r.cursor + size) 8
    show alignUp (r.cursor + size) 8 + 4 + _ ≤ _
    omega

/-- The reference engine takes the idle-list ring in as number 41, if that is free (R217, R227). -/
theorem Obliging.register {n : Nat} {p : RingParams} (h : Obliging room s) (hfree : 41 ∉ s.engReg) :
    (engRingRegister ⟨idleClass, 0, 0, n⟩ p s).1 ≠ none ∧
      Obliging room (engRingRegister ⟨idleClass, 0, 0, n⟩ p s).2 := by
  obtain ⟨r, href, halloc, hengine, hbelow, hroom⟩ := h
  have hdraw : drawRegister idleClass 0 s = (some 41, setRef { r with engine := [] } s) := by
    simp [drawRegister, href, hengine, headOr, idleClass]
  have hadm : engHandleAdmissible s 41 = true := by simpa [engHandleAdmissible] using hfree
  unfold engRingRegister
  dsimp only
  rw [hdraw]
  dsimp only
  rw [Option.filter_some, if_pos hadm]
  exact ⟨nofun, _, rfl, halloc, rfl, hbelow, hroom⟩

/-- The reference engine takes the list (R223, R227). -/
theorem Obliging.publish (h : Obliging room s) : (drawPublish s).1 = true := by
  obtain ⟨r, href, -, hengine, -⟩ := h
  simp [drawPublish, href, hengine, headOr]

end

/-- Room for the representation of the idle list (R143, R148). -/
def idleListRoom (c : Config) (total : Nat) : Nat :=
  match idlePathFor c total with
  | .inRing => ringSize c idleClass total + 12
  | .scatter => scatterBufsNeeded c total * (c.scatterBufSize + 12)

/-- Room for what is still to be asked for, by position. -/
def roomNeeded (s : State) : Nat :=
  match s.seq.pos with
  | .bankAlloc b => (banksNeeded s.cfg (poolTotal s) - b) * (s.cfg.maxAllocSize + 12) + idleListRoom s.cfg (poolTotal s)
  | .ringAlloc _ => ringSize s.cfg idleClass (poolTotal s) + 12
  | .scatterAlloc n => (scatterBufsNeeded s.cfg (poolTotal s) - n) * (s.cfg.scatterBufSize + 12)
  | _ => 0

theorem poolRoom_eq (c : Config) (total : Nat) :
    poolRoom c total = banksNeeded c total * (c.maxAllocSize + 12) + idleListRoom c total := by
  unfold poolRoom idleListRoom
  rfl

/-- Nothing stands in the way of the setup that goes on in `s`. -/
structure Favoured (s : State) : Prop where
  obliging : Obliging (roomNeeded s) s
  ringFits : idlePathFor s.cfg (poolTotal s) = .inRing → ringSize s.cfg idleClass (poolTotal s) ≤ wordMax
  handleFree : idlePathFor s.cfg (poolTotal s) = .inRing → (s.ring idleClass 0).registered = false → 41 ∉ s.engReg

/-- The setup goes on unhindered, or it is done. -/
def Smooth (s : State) : Prop := s.seq.pos.building = true ∧ Favoured s ∨ s.err = .ok ∧ seqStopped s = true

section
variable {s t : State} {op : PortOp}

theorem Favoured.keep (h : Favoured s) (hroom : roomNeeded t ≤ roomNeeded s) (henv : t.env = s.env)
    (hledger : t.ledger = s.ledger) : Favoured t := by
  have hcfg : t.cfg = s.cfg := congrArg Ledger.cfg hledger
  have htotal : poolTotal t = poolTotal s := congrArg (fun l => l.totalLinkDescs.toNat) hledger
  have heng : t.engReg = s.engReg := congrArg Ledger.engReg hledger
  refine ⟨h.obliging.keep hroom henv (congrArg Ledger.live hledger), ?_, ?_⟩
  · rw [hcfg, htotal]
    exact h.ringFits
  · rw [hcfg, htotal, ring_of_ledger hledger, heng]
    exact h.handleFree

/-- There is room for the allocation before which the setup stands. -/
theorem Sound.request_fits (hs : Sound s) (hc : SetupCmd s) (hp : s.seq.pos.allocates = true) :
    requestSize s + 12 ≤ roomNeeded s ∧ requestSize s ≤ wordMax := by
  have hl := poolLimits hs.books.valid
  unfold requestSize roomNeeded
  cases hq : s.seq.pos <;> rw [hq] at hp
  case bankAlloc b =>
    obtain ⟨-, hlt, -⟩ := hs.bankAlloc_at hq
    obtain ⟨-, hmax⟩ := bank_fits hl (poolTotal s) b
    have hone : 1 * (s.cfg.maxAllocSize + 12) ≤ (banksNeeded s.cfg (poolTotal s) - b) * (s.cfg.maxAllocSize + 12) :=
      Nat.mul_le_mul_right _ (by omega)
    dsimp only
    exact ⟨by omega, hmax.trans hl.word⟩
  case ringAlloc r =>
    obtain ⟨rfl, -, -, -, hword⟩ := hs.ringSetup_at hc (.inl hq)
    exact ⟨le_rfl, hword⟩
  case scatterAlloc n =>
    obtain ⟨-, -, hlt, -⟩ := hs.scatterAlloc_at hq
    have hone : 1 * (s.cfg.scatterBufSize + 12) ≤
        (scatterBufsNeeded s.cfg (poolTotal s) - n) * (s.cfg.scatterBufSize + 12) := Nat.mul_le_mul_right _ (by omega)
    dsimp only
    exact ⟨by omega, hl.oneBuf.trans hl.word⟩
  all_goals cases hp

/-- With the reference host and engine agreeing, nothing is refused. -/
theorem Favoured.not_refused {e : Env} (h : Favoured s) (hs : Sound s) (hc : SetupCmd s) : ¬Refused s op e := by
  intro hr
  cases hr with
  | null hp hnull =>
    obtain ⟨hfit, hword⟩ := hs.request_fits hc hp
    exact (h.obliging.alloc hfit hword).1 (congrArg Prod.fst hnull)
  | ring hp hno => exact absurd (h.obliging.publish.symm.trans hno) (by decide)
  | scatter hp hno => exact absurd (h.obliging.publish.symm.trans hno) (by decide)

/-- What is left of the room after bank `b`. -/
theorem roomNeeded_afterBank {b : Nat} {a : Alloc} {e : Env} (hs : Sound s) (hp : s.seq.pos = .bankAlloc b) :
    roomNeeded (goto (afterBankPos s.cfg (poolTotal s) b) (addBank b a (afterAlloc (bankSize s.cfg (poolTotal s) b) a e s))) ≤
      roomNeeded s - (bankSize s.cfg (poolTotal s) b + 12) := by
  obtain ⟨-, hlt, -⟩ := hs.bankAlloc_at hp
  obtain ⟨-, hmax⟩ := bank_fits (poolLimits hs.books.valid) (poolTotal s) b
  obtain ⟨k, hk⟩ := Nat.exists_eq_add_of_lt hlt
  have hroom : roomNeeded s =
      (k + 1) * (s.cfg.maxAllocSize + 12) + idleListRoom s.cfg (poolTotal s) := by
    rw [roomNeeded, hp]
    dsimp only
    rw [hk, show b + k + 1 - b = k + 1 by omega]
  rw [Nat.succ_mul] at hroom
  by_cases hnext : b + 1 < banksNeeded s.cfg (poolTotal s)
  · rw [afterBankPos, if_pos hnext]
    show (banksNeeded s.cfg (poolTotal s) - (b + 1)) * (s.cfg.maxAllocSize + 12) + idleListRoom s.cfg (poolTotal s) ≤ _
    rw [show banksNeeded s.cfg (poolTotal s) - (b + 1) = k by omega]
    omega
  · rw [afterBankPos, if_neg hnext]
    have hlast : idleListRoom s.cfg (poolTotal s) ≤ roomNeeded s - (bankSize s.cfg (poolTotal s) b + 12) := by omega
    refine le_trans (le_of_eq ?_) hlast
    unfold idleListRoom
    cases idlePathFor s.cfg (poolTotal s) <;> rfl

theorem roomNeeded_afterScat {n : Nat} {a : Alloc} {e : Env} (hs : Sound s) (hp : s.seq.pos = .scatterAlloc n) :
    roomNeeded (goto (afterScatPos s.cfg (poolTotal s) n) (addScat n a (afterAlloc s.cfg.scatterBufSize a e s))) ≤
      roomNeeded s - (s.cfg.scatterBufSize + 12) := by
  obtain ⟨-, -, hlt, -⟩ := hs.scatterAlloc_at hp
  obtain ⟨k, hk⟩ := Nat.exists_eq_add_of_lt hlt
  have hroom : roomNeeded s = (k + 1) * (s.cfg.scatterBufSize + 12) := by
    rw [roomNeeded, hp]
    dsimp only
    rw [hk, show n + k + 1 - n = k + 1 by omega]
  rw [Nat.succ_mul] at hroom
  unfold afterScatPos
  split_ifs
  · show (scatterBufsNeeded s.cfg (poolTotal s) - (n + 1)) * (s.cfg.scatterBufSize + 12) ≤ _
    rw [show scatterBufsNeeded s.cfg (poolTotal s) - (n + 1) = k by omega]
    omega
  · exact Nat.zero_le _

/-- The region granted leaves room for the rest. -/
theorem Favoured.granted {size : Nat} {a : Alloc} {e : Env} (h : Favoured s) (hs : Sound s) (hc : SetupCmd s)
    (hp : s.seq.pos.allocates = true) (hreq : requestSize s = size)
    (ha : hostAllocCoherent size s = (some a, afterAlloc size a e s)) :
    Obliging (roomNeeded s - (size + 12)) (afterAlloc size a e s) := by
  obtain ⟨hfit, hword⟩ := hs.request_fits hc hp
  rw [hreq] at hfit hword
  have hleft := (h.obliging.alloc hfit hword).2
  rwa [ha] at hleft

theorem env_scatterLinked {p : Pos} {slot desc : PAddr} {b : Nat} {tail : Word} :
    (goto p (countEntry { afterLink slot b desc s with pool := { s.pool with tailOffset := tail } })).env = s.env := by
  unfold goto countEntry afterLink
  rfl

/-- A favoured setup goes on so, or is done. -/
theorem Favoured.step (h : Favoured s) (hs : Sound s) (hc : SetupCmd s) (hpos : s.seq.pos.building = true)
    (hstep : SetupStep s op t) : Smooth t := by
  cases hstep with
  | refused hr => exact absurd hr (h.not_refused hs hc)
  | tooLarge hp ha hpath hsize => exact absurd (h.ringFits hpath) (Nat.not_le_of_lt hsize)
  | rejected hp hno =>
    obtain ⟨-, ⟨-, hpath, -⟩, ⟨hring, -⟩, -⟩ := hs.ringSetup_at hc (.inr ⟨_, hp⟩)
    exact absurd hno (h.obliging.register (h.handleFree hpath (by rw [hring]))).1
  | rejectFreed hp => exact absurd ((congrArg Pos.building hp).symm.trans hpos) Bool.false_ne_true
  | bank hp ha =>
    have hleft := h.granted hs hc (by rw [hp]; rfl) (by rw [requestSize, hp]) ha
    refine .inl ⟨(afterBankPos_building _ _ _).1, hleft.keep (roomNeeded_afterBank hs hp) rfl rfl, h.ringFits, h.handleFree⟩
  | scat hp ha =>
    have hleft := h.granted hs hc (by rw [hp]; rfl) (by rw [requestSize, hp]) ha
    refine .inl ⟨(afterScatPos_building _ _ _).1, hleft.keep (roomNeeded_afterScat hs hp) rfl rfl, h.ringFits, h.handleFree⟩
  | ringRegion hp ha =>
    have hleft := h.granted hs hc (by rw [hp]; rfl) (by rw [requestSize, hp]; rfl) ha
    exact .inl ⟨rfl, hleft.keep (Nat.zero_le _) rfl rfl, h.ringFits, h.handleFree⟩
  | @registered a hnd e hp ha =>
    obtain ⟨-, ⟨-, hpath, -⟩, ⟨hring, -⟩, -⟩ := hs.ringSetup_at hc (.inr ⟨_, hp⟩)
    have hleft := (h.obliging.register (n := poolTotal s) (p := idleParams a s) (h.handleFree hpath (by rw [hring]))).2
    change Obliging _ (engRingRegister (idleReq s) (idleParams a s) s).2 at hleft
    rw [ha] at hleft
    refine .inl ⟨rfl, hleft.keep (Nat.zero_le _) rfl rfl, h.ringFits, fun _ hno => ?_⟩
    have hnew : (addIdleRing a hnd (afterRegister (idleReq s) (idleParams a s) hnd e s)).ring idleClass 0 =
      ringRecord s.cfg (idleReq s) a hnd := addIdleRing_ring
    exact absurd ((congrArg RingRec.registered hnew).symm.trans hno) nofun
  | opened hp hop => exact .inl ⟨rfl, h.keep (Nat.zero_le _) rfl rfl⟩
  | slot hp hop => exact .inl ⟨rfl, h.keep (Nat.zero_le _) rfl rfl⟩
  | closed hp hop => exact .inl ⟨rfl, h.keep (Nat.zero_le _) rfl rfl⟩
  | link hp hnext =>
    obtain ⟨b', j', -, rfl⟩ | ⟨-, rfl⟩ := hnext
    · exact .inl ⟨rfl, h.keep (Nat.zero_le _) rfl ledger_linked⟩
    · exact .inl ⟨rfl, h.keep (Nat.zero_le _) rfl ledger_linked⟩
  | scatterLink hp hnext =>
    obtain ⟨b', j', -, rfl⟩ | ⟨-, rfl⟩ := hnext
    · exact .inl ⟨rfl, h.keep (Nat.zero_le _) env_scatterLinked ledger_scatterLinked⟩
    · exact .inl ⟨rfl, h.keep (Nat.zero_le _) env_scatterLinked ledger_scatterLinked⟩
  | published hp => exact .inr ⟨rfl, rfl⟩
  | publishedScatter hp => exact .inr ⟨rfl, rfl⟩

/-- At a position of `Pos.building` nothing was refused. -/
theorem SetupPhase.of_building {total : Nat} {s0 : State} (h : SetupPhase total s0 s) (hpos : s.seq.pos.building = true) :
    ∃ es, Building total s0 s es := by
  cases h with
  | building h => exact ⟨_, h⟩
  | rejecting hp => exact absurd ((congrArg Pos.building hp).symm.trans hpos) Bool.false_ne_true
  | unwinding hop h hu =>
    exact absurd (hu.not_build.symm.trans (Pos.building_builds hpos)) Bool.false_ne_true
  | done h => exact absurd ((congrArg (fun q : Seq => q.pos.building) h.seq).symm.trans hpos) Bool.false_ne_true

/-- Until it stops, an unhindered setup takes a step towards its end. -/
theorem Smooth.advances {total : Nat} {s0 : State} (h : Smooth s) (hs : Sound s) (hphase : SetupPhase total s0 s)
    (hgo : seqStopped s = false) :
    ∃ t, seqStep s = .next t ∧ (Sound t ∧ SetupPhase total s0 t ∧ Smooth t) ∧ poolLength t < poolLength s := by
  obtain ⟨hpos, hfav⟩ | ⟨-, hstop⟩ := h
  · obtain ⟨es, hb⟩ := hphase.of_building hpos
    have hbuild := Pos.building_builds hpos
    obtain ⟨op, t, ht, hstep⟩ := posStep_setupStep hs hb.command hbuild
    have hseq : seqStep s = .next t := (not_stopped_of_ofMemory (Pos.ofMemory_of_ofBuild hbuild)).2.trans ht
    have hsound := seqStep_sound hs hseq
    exact ⟨t, hseq, ⟨hsound, hb.step hs hstep hsound, hfav.step hs hb.command hpos hstep⟩,
      hstep.length_lt hs hb.command hsound⟩
  · exact absurd (hgo.symm.trans hstop) Bool.false_ne_true

end

end Sys2Proof.Machine

namespace Sys2Proof.Machine

/-- A planned setup begins favoured when there is room for the whole pool. -/
theorem favoured_planned {s : State} {total : Nat} {r : RefEnv} (hplan : planTotal s.cfg (scalar s) = some total)
    (hring : idlePathFor s.cfg total = .inRing → ringSize s.cfg idleClass total ≤ wordMax ∧ 41 ∉ s.engReg)
    (href : s.env.reference = some r) (halloc : r.alloc = []) (hengine : r.engine = [])
    (hbelow : ∀ a ∈ s.live, a.pa.toNat + a.size.toNat ≤ r.cursor) (hroom : r.cursor + poolRoom s.cfg total ≤ addressSpace) :
    Favoured (planned total s) := by
  obtain ⟨-, hmax, -⟩ := planTotal_some hplan
  have htotal : poolTotal (planned total s) = total := size_toNat (hmax.trans (by decide))
  have hneed : roomNeeded (planned total s) = poolRoom s.cfg total := by
    rw [poolRoom_eq]
    show (banksNeeded s.cfg (poolTotal (planned total s)) - 0) * (s.cfg.maxAllocSize + 12) +
      idleListRoom s.cfg (poolTotal (planned total s)) = _
    rw [htotal, Nat.sub_zero]
  refine ⟨⟨r, href, halloc, hengine, hbelow, hneed ▸ hroom⟩, ?_, ?_⟩
  · rw [htotal]
    exact fun hp => (hring hp).1
  · rw [htotal]
    exact fun hp _ => (hring hp).2

theorem exec_favoured {s t : State} {total : Nat} (hs : Consistent s) (hp : s.seq.pos = .start)
    (hv : s.pool.valid = false) (hplan : planTotal s.cfg (scalar s) = some total) (hfav : Favoured (planned total s))
    (hexec : exec .linkPoolSetup s = .next t) : t.err = .ok := by
  obtain ⟨u, hexec', -, -, hsmooth, hstop⟩ := exec_linkPoolSetup_stops hs hp hv hplan (P := Smooth) (.inl ⟨rfl, hfav⟩)
    fun u hu hphase hsmooth hgo => hsmooth.advances hu hphase hgo
  obtain rfl : t = u := by
    rw [hexec] at hexec'
    cases hexec'
    rfl
  obtain ⟨hpos, -⟩ | ⟨herr, -⟩ := hsmooth
  · have hgo := (not_stopped_of_ofMemory (Pos.ofMemory_of_ofBuild (Pos.building_builds hpos))).1
    exact absurd (hgo.symm.trans hstop) Bool.false_ne_true
  · exact herr

/-- Settles O27: with the reference host and engine no step is refused, so that the setup ends as `Succeeded` says. -/
theorem poolSetupSucceedsWithTheReferenceHost : Obligations.PoolSetupSucceedsWithTheReferenceHost := by
  intro s m total r hs hacc hv hplan hring href halloc hengine hbelow hroom
  obtain ⟨t, es, hexec, ht, hend⟩ := exec_linkPoolSetup_ends hs hacc hv hplan
  obtain ⟨hp, -, -, rfl⟩ := hacc
  have herr : t.err = .ok := exec_favoured hs hp hv hplan
    (favoured_planned hplan hring href halloc hengine hbelow hroom) hexec
  have h : Succeeded total s t es := hend.resolve_right fun h => failureCode_ne_ok es (h.err.symm.trans herr)
  obtain ⟨-, hmax, -⟩ := planTotal_some hplan
  obtain ⟨hnb, hpath, hpaths⟩ := h.paths ht
  have htotal : t.pool.totalLinkDescs = BitVec.ofNat 32 total :=
    BitVec.eq_of_toNat_eq (h.granting.planned.trans (size_toNat (hmax.trans (by decide))).symm)
  refine ⟨t, hexec, herr, h.res0.trans htotal, ?_, h.valid, h.granting.planned, hnb, hpath, h.engIdle, h.seq⟩
  rw [h.res1, hnb]
  obtain ⟨hp, -, hbufs⟩ | ⟨hp, -, hbufs⟩ := hpaths
  · rw [hp, hbufs]
  · rw [hp, hbufs]

end Sys2Proof.Machine

namespace Sys2Proof.Machine

/-! ## `DISP_ATTACH` and `DISP_DETACH` from acceptance to completion or hold (R170 to R185) -/

/-! ### One step of a run, every context at once -/

theorem exec_start {i : Instr} {s : State} (hp : s.seq.pos = .start) : exec i s = runSeq seqFuel (beginCommand i s) := by
  rw [exec_eq, runCommand_start hp]

theorem runSeq_next {s t : State} (hgo : seqStopped s = false) (ht : seqStep s = .next t) (n : Nat) :
    runSeq (n + 1) s = runSeq n t := by
  rw [runSeq_step hgo, ht, andThen_next_eq]

theorem seqFuel_split {k : Nat} (hk : k ≤ 19) : ∃ n, seqFuel = k + (n + 2) :=
  ⟨seqFuel - 2 - k, by unfold seqFuel; omega⟩

/-- The contexts do not know where the sequencer stands. -/
theorem mapContexts_goto (f : Nat → Ctx → Ctx) (p : Pos) (s : State) :
    mapContexts f (goto p s) = goto p (mapContexts f s) :=
  List.foldl_hom (goto p) fun _ _ => rfl

theorem assignMasks_ctx {s : State} (hn : s.cfg.numCtx ≤ 16) (c : Nat) :
    (assignMasks s).ctx c = if c < s.cfg.numCtx then withMasks (maskRow s.cfg c) (s.ctx c) else s.ctx c :=
  mapContexts_ctx _ s hn c

theorem clearMasks_ctx {s : State} (hn : s.cfg.numCtx ≤ 16) (c : Nat) :
    (clearMasks s).ctx c = if c < s.cfg.numCtx then withMasks {} (s.ctx c) else s.ctx c :=
  mapContexts_ctx _ s hn c

theorem cancelPending_ctx {s : State} (hn : s.cfg.numCtx ≤ 16) (c : Nat) :
    (cancelPending s).ctx c =
      if c < s.cfg.numCtx then { s.ctx c with pend := false, pendBudget := 0 } else s.ctx c :=
  mapContexts_ctx _ s hn c

/-! ### The registration of the sources (R173, R213) -/

/-- What the registration of the sources `ps` under the handles `hs` does, the environment becoming `e`. -/
def withSources (ps : List (Nat × Nat)) (hs : List Handle) (e : Env) (s : State) : State :=
  { s with
    disp := { s.disp with
      irqReg := s.disp.irqReg ++ (ps.zip hs).map (fun p => ⟨BitVec.ofNat 8 p.1.1, BitVec.ofNat 4 p.1.2, p.2⟩) },
    hist := s.hist ++ (ps.zip hs).map (fun p => ⟨.seq, .registerInterrupt p.1.1 p.1.2 p.2⟩),
    env := e }

theorem withSources_nil (s : State) : withSources [] [] s.env s = s := by
  simp [withSources]

theorem withSources_cons (p : Nat × Nat) (ps : List (Nat × Nat)) (h : Handle) (hs : List Handle) (d e : Env) (s : State) :
    withSources ps hs e (withSources [p] [h] d s) = withSources (p :: ps) (h :: hs) e s := by
  simp [withSources]

/-- Handles the host may answer one after the other: not 0, not in use, and distinct (R213). -/
def FreshHandles (s : State) (hs : List Handle) : Prop := hs.Nodup ∧ ∀ h ∈ hs, h ≠ 0 ∧ h ∉ irqHandles s

theorem FreshHandles.cons {s : State} {p : Nat × Nat} {h : Handle} {hs : List Handle} {e : Env} (h0 : h ≠ 0)
    (hnew : h ∉ irqHandles s) (hfresh : FreshHandles (withSources [p] [h] e s) hs) : FreshHandles s (h :: hs) := by
  obtain ⟨hnodup, havoid⟩ := hfresh
  have hused : irqHandles (withSources [p] [h] e s) = irqHandles s ++ [h] := List.map_append
  rw [hused] at havoid
  simp only [List.mem_append, List.mem_singleton, not_or] at havoid
  refine ⟨List.nodup_cons.mpr ⟨fun hmem => (havoid h hmem).2.2 rfl, hnodup⟩, fun g hg => ?_⟩
  obtain rfl | hg := List.mem_cons.mp hg
  · exact ⟨h0, hnew⟩
  · exact ⟨(havoid g hg).1, (havoid g hg).2.1⟩

/-- One registration is answered with a new handle. -/
theorem hostRegisterInterrupt_withSources (p : Nat × Nat) {s : State} (hlen : s.disp.irqReg.length + 2 ≤ 2 ^ 32) :
    ∃ h e, h ≠ 0 ∧ h ∉ irqHandles s ∧ hostRegisterInterrupt p.1 p.2 s = withSources [p] [h] e s := by
  obtain ⟨e, raw, heq⟩ := hostRegisterInterrupt_eq p.1 p.2 s
  have hadm := legalIrqHandle_admissible s raw hlen
  simp only [irqHandleAdmissible, Bool.and_eq_true, decide_eq_true_eq, Bool.not_eq_true', List.contains_eq_mem,
    decide_eq_false_iff_not] at hadm
  exact ⟨legalIrqHandle s raw, e, hadm.1, hadm.2, heq⟩

/-- Once the masks are assigned the relevant sources are the table's, whatever the masks were (R172, R173). -/
theorem relevantSources_assignMasks {s : State} (hn : s.cfg.numCtx ≤ 16) :
    relevantSources (assignMasks s) = tableSources s.cfg := by
  have hcfg : (assignMasks s).cfg = s.cfg := (assignMasks_setup s).1
  unfold relevantSources tableSources contexts
  rw [hcfg]
  refine List.flatMap_congr fun c hc => List.flatMap_congr fun k _ => ?_
  rw [assignMasks_ctx hn, if_pos (List.mem_range.mp hc), ctxMask_withMasks]

/-- From source number `r` on, a run registers the sources `ps` that remain, one a step, and attaches. -/
theorem runSeq_attachFrom (n : Nat) (ps : List (Nat × Nat)) (r : Nat) (s : State)
    (hps : (relevantSources s).drop r = ps) (hlen : s.disp.irqReg.length + ps.length + 2 ≤ 2 ^ 32) :
    ∃ hs e, hs.length = ps.length ∧ FreshHandles s hs ∧
      runSeq (ps.length + n) (attachFrom r s) = .next (finishAttach (withSources ps hs e s)) := by
  induction ps generalizing r s with
  | nil =>
    refine ⟨[], s.env, rfl, ⟨List.nodup_nil, nofun⟩, ?_⟩
    rw [attachFrom, if_neg (Nat.not_lt.mpr (List.drop_eq_nil_iff.mp hps)), withSources_nil]
    exact runSeq_of_stopped rfl _
  | cons p ps ih =>
    have hr : r < (relevantSources s).length := by
      by_contra hr
      rw [List.drop_eq_nil_of_le (Nat.le_of_not_lt hr)] at hps
      cases hps
    rw [List.drop_eq_getElem_cons hr, List.cons.injEq] at hps
    obtain ⟨hp, hrest⟩ := hps
    rw [List.length_cons] at hlen
    obtain ⟨h, d, h0, hnew, hreg⟩ :=
      hostRegisterInterrupt_withSources p (s := goto (.registerSource r) s) (show s.disp.irqReg.length + 2 ≤ _ by omega)
    have hstep : seqStep (goto (.registerSource r) s) =
        .next (attachFrom (r + 1) (withSources [p] [h] d (goto (.registerSource r) s))) := by
      show Host.Outcome.next (registerSourceStep r (goto (.registerSource r) s)) = _
      have hsource : (relevantSources (goto (.registerSource r) s))[r]? = some p :=
        hp ▸ List.getElem?_eq_getElem hr
      rw [registerSourceStep, hsource, Option.getD_some, hreg]
    obtain ⟨hs, e, hcount, hfresh, hrun⟩ := ih (r + 1) (withSources [p] [h] d (goto (.registerSource r) s)) hrest (by
      show (s.disp.irqReg ++ [_]).length + _ + _ ≤ _
      rw [List.length_append, List.length_singleton]
      omega)
    refine ⟨h :: hs, e, congrArg (· + 1) hcount, FreshHandles.cons (e := d) h0 hnew hfresh, ?_⟩
    rw [attachFrom, if_pos hr, List.length_cons, Nat.add_right_comm, runSeq_next rfl hstep, hrun, withSources_cons]
    rfl

/-! ### `DISP_ATTACH` -/

/-- Settles O29: the first step raises the error. -/
theorem attachWhenAttachedFails : Obligations.AttachWhenAttachedFails := by
  intro s hp ha
  have hbegin : beginCommand .dispAttach s = complete .configErr 0 0 s := by
    show beginDispAttach s = _
    rw [beginDispAttach, if_pos ha]
    rfl
  rw [exec_start hp, hbegin, runSeq_complete]
  rfl

theorem beginCommand_dispAttach_event {s : State} (ha : s.disp.attached = false) (hm : s.mode = .event) :
    beginCommand .dispAttach s = attachFrom 0 (assignMasks (setOp .dispAttach s)) := by
  show beginDispAttach s = _
  rw [beginDispAttach, if_neg (by rw [ha]; decide), hm]

theorem beginCommand_dispAttach_poll {s : State} (ha : s.disp.attached = false) (hm : s.mode = .poll) :
    beginCommand .dispAttach s = goto .timerInit (assignMasks (setOp .dispAttach s)) := by
  show beginDispAttach s = _
  rw [beginDispAttach, if_neg (by rw [ha]; decide), hm]

/-- Settles O30: the masks are assigned, and then `runSeq_attachFrom` registers the sources they name. -/
theorem attachRegistersEverySource : Obligations.AttachRegistersEverySource := by
  intro s hv hp ha hm hlen
  have hn := numCtx_le hv
  have hle := tableSources_length_le hv
  have hctx := assignMasks_ctx (s := setOp .dispAttach s) hn
  have hsources := relevantSources_assignMasks (s := setOp .dispAttach s) hn
  obtain ⟨cs, hframe⟩ : ∃ cs, assignMasks (setOp .dispAttach s) = { setOp .dispAttach s with ctxs := cs } :=
    mapContexts_frame _ _
  obtain ⟨n, hfuel⟩ := seqFuel_split hle
  rw [exec_start hp, beginCommand_dispAttach_event ha hm, hfuel]
  rw [hframe] at hctx hsources ⊢
  have hroom : s.disp.irqReg.length + (tableSources s.cfg).length + 2 ≤ 2 ^ 32 := by omega
  obtain ⟨hs, e, hcount, ⟨hnodup, havoid⟩, hrun⟩ := runSeq_attachFrom (n + 2) (tableSources s.cfg) 0 _ hsources hroom
  exact ⟨_, hs, hrun, hcount, hnodup, havoid, rfl, hctx, rfl⟩

theorem timerInitStep_eq (s : State) :
    timerInitStep s = { s with
      seq := { s.seq with pos := .timerStart }, disp := { s.disp with timer := .stopped },
      hist := s.hist ++ [⟨.seq, .timerInit⟩] } := rfl

theorem timerStartStep_eq (s : State) :
    timerStartStep s = { s with
      err := .ok, res0 := BitVec.ofNat 32 s.disp.irqReg.length, res1 := 0, seq := {},
      disp := { s.disp with attached := true, timer := .running },
      hist := s.hist ++ [⟨.seq, .timerStart s.pollPeriod⟩] } := rfl

/-- The timer is created and started (R174). -/
theorem runSeq_timerInit (n : Nat) (s : State) :
    runSeq (n + 2) (goto .timerInit s) = .next { s with
      err := .ok, res0 := BitVec.ofNat 32 s.disp.irqReg.length, res1 := 0, seq := {},
      disp := { s.disp with attached := true, timer := .running },
      hist := s.hist ++ [⟨.seq, .timerInit⟩, ⟨.seq, .timerStart s.pollPeriod⟩] } := by
  have hinit : seqStep (goto .timerInit s) = .next (timerInitStep (goto .timerInit s)) := rfl
  have hstart : seqStep (timerInitStep (goto .timerInit s)) =
      .next (timerStartStep (timerInitStep (goto .timerInit s))) := rfl
  rw [runSeq_next rfl hinit, runSeq_next rfl hstart, runSeq_of_stopped rfl, timerStartStep_eq, timerInitStep_eq]
  simp

/-- Settles O31: the masks are assigned, and then `runSeq_timerInit` creates and starts the timer. -/
theorem attachStartsThePollTimer : Obligations.AttachStartsThePollTimer := by
  intro s hv hp ha hm hirq
  have hctx := assignMasks_ctx (s := setOp .dispAttach s) (numCtx_le hv)
  obtain ⟨cs, hframe⟩ : ∃ cs, assignMasks (setOp .dispAttach s) = { setOp .dispAttach s with ctxs := cs } :=
    mapContexts_frame _ _
  obtain ⟨n, hfuel⟩ := seqFuel_split (Nat.zero_le 19)
  rw [exec_start hp, beginCommand_dispAttach_poll ha hm, hfuel, Nat.zero_add]
  rw [hframe] at hctx ⊢
  refine ⟨_, runSeq_timerInit n _, hctx, ?_⟩
  simp [hirq]

/-! ### The free of the sources (R182, R184) -/

/-- Every source is freed, from the last to the first (R182). -/
def sourcesFreed (s : State) : State :=
  { s with
    disp := { s.disp with irqReg := [] },
    hist := s.hist ++ s.disp.irqReg.reverse.map (fun r => ⟨.seq, .freeInterrupt r.handle⟩) }

theorem sourcesFreed_of_nil {s : State} (h : s.disp.irqReg = []) : sourcesFreed s = s := by
  have hdisp : { s.disp with irqReg := [] } = s.disp := by rw [← h]
  simp [sourcesFreed, h, hdisp]

theorem hostFreeLastInterrupt_append {s : State} {l : List IrqRec} {r : IrqRec} (h : s.disp.irqReg = l ++ [r]) :
    hostFreeLastInterrupt s =
      { record .seq (.freeInterrupt r.handle) s with disp := { s.disp with irqReg := l } } := by
  simp [hostFreeLastInterrupt, h]

/-- The free of the last source is the first of the frees. -/
theorem sourcesFreed_hostFreeLastInterrupt {s : State} {l : List IrqRec} {r : IrqRec} (h : s.disp.irqReg = l ++ [r]) :
    sourcesFreed (hostFreeLastInterrupt s) = sourcesFreed s := by
  rw [hostFreeLastInterrupt_append h]
  simp [sourcesFreed, record, h]

/-- `DISP_DETACH` in event-driven mode with every source freed and every request cancelled (R184). -/
def detachWaiting (s : State) : State := goto .detachWait (cancelPending (sourcesFreed s))

theorem detachWaiting_goto (p : Pos) (s : State) : detachWaiting (goto p s) = detachWaiting s := by
  have hcancel : cancelPending (goto p (sourcesFreed s)) = goto p (cancelPending (sourcesFreed s)) :=
    mapContexts_goto _ p _
  show goto .detachWait (cancelPending (goto p (sourcesFreed s))) = _
  rw [hcancel]
  rfl

/-- A run frees the registered sources, one a step, and comes to the wait. -/
theorem runSeq_detachFrom (n : Nat) (l : List IrqRec) (s : State) (hl : s.disp.irqReg = l) :
    runSeq (l.length + n) (detachFrom s) = runSeq n (detachWaiting s) := by
  induction l using List.reverseRecOn generalizing s with
  | nil => rw [detachFrom, if_pos hl, detachWaiting, sourcesFreed_of_nil hl, List.length_nil, Nat.zero_add]
  | append_singleton l r ih =>
    have hlast : (goto .freeSource s).disp.irqReg = l ++ [r] := hl
    have hstep : seqStep (goto .freeSource s) = .next (detachFrom (hostFreeLastInterrupt (goto .freeSource s))) := rfl
    have hrest : (hostFreeLastInterrupt (goto .freeSource s)).disp.irqReg = l := by
      rw [hostFreeLastInterrupt_append hlast]
    have hwait : detachWaiting (hostFreeLastInterrupt (goto .freeSource s)) = detachWaiting s := by
      rw [detachWaiting, sourcesFreed_hostFreeLastInterrupt hlast]
      exact detachWaiting_goto .freeSource s
    rw [detachFrom, if_neg (by rw [hl]; simp), List.length_append, List.length_singleton, Nat.add_right_comm,
      runSeq_next rfl hstep, ih _ hrest, hwait]

theorem anyBusy_iff (s : State) : anyBusy s = true ↔ ∃ c < s.cfg.numCtx, (s.ctx c).busy = true := by
  simp [anyBusy, contexts]

/-- The wait leaves all but the sources, the history, the requests and the sequencer's position as it was. -/
theorem detachWaiting_frame (s : State) :
    ∃ cs, detachWaiting s = { sourcesFreed s with seq := { s.seq with pos := .detachWait }, ctxs := cs } := by
  obtain ⟨cs, hcs⟩ : ∃ cs, cancelPending (sourcesFreed s) = { sourcesFreed s with ctxs := cs } := mapContexts_frame _ _
  exact ⟨cs, by rw [detachWaiting, hcs]; rfl⟩

theorem detachWaiting_ctx {s : State} (hn : s.cfg.numCtx ≤ 16) (c : Nat) :
    (detachWaiting s).ctx c =
      if c < s.cfg.numCtx then { s.ctx c with pend := false, pendBudget := 0 } else s.ctx c :=
  cancelPending_ctx (s := sourcesFreed s) hn c

theorem detachWaiting_cfg (s : State) : (detachWaiting s).cfg = s.cfg := (cancelPending_setup (sourcesFreed s)).1

/-- A cancelled request does not stop a running invocation (R184). -/
theorem seqHeld_detachWaiting {s : State} (hn : s.cfg.numCtx ≤ 16) :
    seqHeld (detachWaiting s) = true ↔ ∃ c < s.cfg.numCtx, (s.ctx c).busy = true := by
  have hbusy (c : Nat) : ((detachWaiting s).ctx c).busy = (s.ctx c).busy := by
    rw [detachWaiting_ctx hn]
    split <;> rfl
  show anyBusy (detachWaiting s) = true ↔ _
  simp only [anyBusy_iff, detachWaiting_cfg, hbusy]

/-! ### `DISP_DETACH` -/

/-- Settles O32: the first step completes. -/
theorem detachWhenNotAttachedDoesNothing : Obligations.DetachWhenNotAttachedDoesNothing := by
  intro s hp ha
  have hbegin : beginCommand .dispDetach s = complete .ok 0 0 s := by
    show beginDispDetach s = _
    rw [beginDispDetach, if_neg (by rw [ha]; decide)]
    rfl
  rw [exec_start hp, hbegin, runSeq_complete]
  rfl

theorem beginCommand_dispDetach_event {s : State} (ha : s.disp.attached = true) (hm : s.mode = .event) :
    beginCommand .dispDetach s = detachFrom (setOp .dispDetach s) := by
  show beginDispDetach s = _
  rw [beginDispDetach, if_pos ha, hm]

theorem beginCommand_dispDetach_poll {s : State} (ha : s.disp.attached = true) (hm : s.mode = .poll) :
    beginCommand .dispDetach s = goto .timerStop (setOp .dispDetach s) := by
  show beginDispDetach s = _
  rw [beginDispDetach, if_pos ha, hm]

/-- The end of `DISP_DETACH` touches the results, the sequencer, the contexts and `DISP.attached` only. -/
theorem finishDetach_frame (s : State) :
    ∃ cs, finishDetach s = { s with
      err := .ok, res0 := 0, res1 := 0, seq := {}, ctxs := cs, disp := { s.disp with attached := false } } := by
  obtain ⟨cs, hcs⟩ : ∃ cs, clearMasks s = { s with ctxs := cs } := mapContexts_frame _ _
  refine ⟨cs, ?_⟩
  show completeOk { clearMasks s with disp := { (clearMasks s).disp with attached := false } } = _
  rw [hcs]
  rfl

theorem finishDetach_ctx {s : State} (hn : s.cfg.numCtx ≤ 16) (c : Nat) :
    (finishDetach s).ctx c = if c < s.cfg.numCtx then withMasks {} (s.ctx c) else s.ctx c := clearMasks_ctx hn c

/-- Settles O33: `runSeq_detachFrom` comes to the wait, which holds the command or is passed in one step. -/
theorem detachFreesEverySource : Obligations.DetachFreesEverySource := by
  intro s hv hp ha hm hlen
  have hn := numCtx_le hv
  have hheld := seqHeld_detachWaiting (s := setOp .dispDetach s) hn
  have hctx (c : Nat) : (detachWaiting (setOp .dispDetach s)).ctx c =
      if c < s.cfg.numCtx then { s.ctx c with pend := false, pendBudget := 0 } else s.ctx c :=
    detachWaiting_ctx (s := setOp .dispDetach s) hn c
  have hcfg : (detachWaiting (setOp .dispDetach s)).cfg = s.cfg := detachWaiting_cfg _
  have hpos : (detachWaiting (setOp .dispDetach s)).seq.pos = .detachWait := rfl
  obtain ⟨cs, hframe⟩ := detachWaiting_frame (setOp .dispDetach s)
  obtain ⟨n, hfuel⟩ := seqFuel_split hlen
  have hrun := runSeq_detachFrom (n + 2) s.disp.irqReg (setOp .dispDetach s) rfl
  rw [exec_start hp, beginCommand_dispDetach_event ha hm, hfuel, hrun]
  generalize detachWaiting (setOp .dispDetach s) = w at hheld hctx hcfg hpos hframe ⊢
  have hstopped : seqStopped w = seqHeld w := by rw [seqStopped, hpos]
  refine ⟨fun hbusy => ?_, fun hidle => ?_⟩
  · have hstop : seqStopped w = true := hstopped.trans (hheld.mpr hbusy)
    exact ⟨w, runSeq_of_stopped hstop _, by rw [State.busy, hpos], hctx, by rw [hframe]; rfl⟩
  · have hfree : seqHeld w = false := Bool.eq_false_iff.mpr fun h => by
      obtain ⟨c, hc, hb⟩ := hheld.mp h
      exact Bool.false_ne_true ((hidle c hc).symm.trans hb)
    have hstep : seqStep w = .next (finishDetach w) := by
      rw [seqStep, if_neg (by rw [hfree]; decide), posStep, hpos]
    obtain ⟨ds, hend⟩ := finishDetach_frame w
    refine ⟨finishDetach w, ?_, fun c => ?_, ?_⟩
    · rw [runSeq_next (hstopped.trans hfree) hstep]
      exact runSeq_of_stopped rfl _
    · rw [finishDetach_ctx (hcfg ▸ hn), hcfg, hctx]
      split <;> rfl
    · rw [hend, hframe]
      rfl

/-- The timer is stopped and freed (R183). -/
def timerDeleted (s : State) : State :=
  { s with disp := { s.disp with timer := .none }, hist := s.hist ++ [⟨.seq, .timerStop⟩, ⟨.seq, .timerFree⟩] }

theorem finishDetach_goto (p : Pos) (s : State) : finishDetach (goto p s) = finishDetach s := by
  have hclear : clearMasks (goto p s) = goto p (clearMasks s) := mapContexts_goto _ p s
  rw [finishDetach, hclear]
  rfl

theorem timerStopStep_eq (s : State) :
    timerStopStep s = goto .timerFree { s with
      disp := { s.disp with timer := .stopped }, hist := s.hist ++ [⟨.seq, .timerStop⟩] } := rfl

theorem hostTimerFree_eq (s : State) :
    hostTimerFree s = { s with disp := { s.disp with timer := .none }, hist := s.hist ++ [⟨.seq, .timerFree⟩] } := rfl

/-- While no pass runs the timer is stopped and freed, and the command ends. -/
theorem runSeq_timerStop (n : Nat) {s : State} (hquiet : s.disp.timer ≠ .stopped) :
    runSeq (n + 2) (goto .timerStop s) = .next (finishDetach (timerDeleted s)) := by
  have hfree : seqHeld (goto .timerStop s) = false := decide_eq_false hquiet
  have hstop : seqStep (goto .timerStop s) = .next (timerStopStep (goto .timerStop s)) := by
    rw [seqStep, if_neg (by rw [hfree]; decide)]
    rfl
  have hgo : seqStopped (goto .timerStop s) = false := hfree
  have hdelete : seqStep (timerStopStep (goto .timerStop s)) =
      .next (timerFreeStep (timerStopStep (goto .timerStop s))) := rfl
  have hdeleted : hostTimerFree (timerStopStep (goto .timerStop s)) = goto .timerFree (timerDeleted s) := by
    rw [timerStopStep_eq, hostTimerFree_eq]
    simp [goto, timerDeleted]
  rw [runSeq_next hgo hstop, runSeq_next rfl hdelete, timerFreeStep, hdeleted, finishDetach_goto]
  exact runSeq_of_stopped rfl n

/-- Settles O34: at the stop of the timer the command is held, or goes on as `runSeq_timerStop` says. -/
theorem detachStopsThePollTimer : Obligations.DetachStopsThePollTimer := by
  intro s hv hp ha hm
  rw [exec_start hp, beginCommand_dispDetach_poll ha hm]
  refine ⟨fun hpass => ?_, fun hquiet => ?_⟩
  · have hheld : seqStopped (goto .timerStop (setOp .dispDetach s)) = true := decide_eq_true hpass
    exact runSeq_of_stopped hheld _
  · obtain ⟨n, hfuel⟩ := seqFuel_split (Nat.zero_le 19)
    obtain ⟨cs, hend⟩ := finishDetach_frame (timerDeleted (setOp .dispDetach s))
    have hctx := finishDetach_ctx (s := timerDeleted (setOp .dispDetach s)) (numCtx_le hv)
    rw [hfuel, Nat.zero_add, runSeq_timerStop n (s := setOp .dispDetach s) hquiet]
    rw [hend] at hctx ⊢
    exact ⟨_, rfl, hctx, rfl⟩

end Sys2Proof.Machine

namespace Sys2Proof.Machine

/-! ## One invocation of `ServiceLoop` (R190 to R198)

The handler calls of an invocation, whichever agent runs it: which ring comes next, what a call does, and what the calls of a
whole invocation have done. -/

/-! ### The rings ahead (R191) -/

/-- A numbered element tells where the list goes on after it. -/
theorem drop_zipIdx_of_append_cons {α : Type} {l : List α} {pre rest : List (α × Nat)} {p : α × Nat}
    (h : l.zipIdx = pre ++ p :: rest) : l.zipIdx.drop (p.2 + 1) = rest := by
  have hp : l.zipIdx[pre.length]? = some p := by rw [h, List.getElem?_append_right le_rfl, Nat.sub_self]; rfl
  rw [List.getElem?_zipIdx, Nat.zero_add] at hp
  obtain ⟨a, -, rfl⟩ := Option.map_eq_some_iff.mp hp
  rw [h, List.append_cons]
  exact List.drop_left' (by simp)

/-- Once the loop has entered a ring ahead, the rings after it are ahead. -/
theorem slotsAhead_entered {c : Config} {x : Ctx} {pre rest : List (Slot × Nat)} {p : Slot × Nat}
    (h : slotsAhead c x = pre ++ p :: rest) : slotsAhead c (entered p x) = rest := by
  obtain ⟨l₁, l₂, hdrop, -, hp⟩ := List.filter_eq_append_iff.mp h
  obtain ⟨l₃, l₄, rfl, -, -, hrest⟩ := List.filter_eq_cons_iff.mp hp
  have hsplit : (loopSlots c).zipIdx = ((loopSlots c).zipIdx.take x.next ++ l₁ ++ l₃) ++ p :: l₄ := by
    rw [List.append_assoc, List.append_assoc, ← hdrop, List.take_append_drop]
  show ((loopSlots c).zipIdx.drop (p.2 + 1)).filter _ = rest
  rw [drop_zipIdx_of_append_cons hsplit]
  exact hrest

/-- Phases 1 to 4 test the budget (R194, R198). -/
theorem Slot.budgeted_iff (p : Slot) : p.budgeted = true ↔ p ≠ .reo := by cases p <;> simp [Slot.budgeted]

/-- While budget is left the next present ring is serviced; once it is used up only the REO-status ring is (R194, R198). -/
theorem nextCall_eq (c : Config) (x : Ctx) :
    nextCall c x =
      if x.rem = 0 then (slotsAhead c x).find? (fun q => q.1 == .reo) else (slotsAhead c x).head? := by
  unfold nextCall
  split
  · next h => rw [h]; simp
  · next p rest h =>
    rw [h, List.find?_cons]
    by_cases hp : p.1 = .reo
    · simp [hp, Slot.budgeted]
    · have hb : p.1.budgeted = true := p.1.budgeted_iff.mpr hp
      have hne : (p.1 == Slot.reo) = false := beq_eq_false_iff_ne.mpr hp
      simp [hb, hne]

/-- The rings ahead are `order`, all of them budgeted, and then the REO-status ring if `reo`. -/
def Ahead (c : Config) (x : Ctx) (order : List Slot) (reo : Bool) : Prop :=
  (slotsAhead c x).map Prod.fst = order ++ (if reo then [.reo] else []) ∧ ∀ p ∈ order, p ≠ .reo

/-- While budget is left the first of the rings ahead is called, and the others stay ahead. -/
theorem Ahead.nextCall_cons {c : Config} {x : Ctx} {p : Slot} {order : List Slot} {reo : Bool}
    (h : Ahead c x (p :: order) reo) (hrem : x.rem ≠ 0) :
    ∃ i, nextCall c x = some (p, i) ∧ Ahead c (entered (p, i) x) order reo := by
  obtain ⟨hmap, hbudgeted⟩ := h
  obtain ⟨⟨p', i⟩, rest, hahead, rfl, hrest⟩ := List.map_eq_cons_iff.mp hmap
  refine ⟨i, ?_, ?_, fun q hq => hbudgeted q (List.mem_cons_of_mem _ hq)⟩
  · rw [nextCall_eq, if_neg hrem, hahead]
    rfl
  · rw [slotsAhead_entered (pre := []) hahead]
    exact hrest

/-- With no budgeted ring ahead, or no budget left, only the REO-status ring can still be called. -/
theorem Ahead.nextCall_spent {c : Config} {x : Ctx} {order : List Slot} {reo : Bool} (h : Ahead c x order reo)
    (hspent : order ≠ [] → x.rem = 0) : nextCall c x = (slotsAhead c x).find? (fun q => q.1 == .reo) := by
  rw [nextCall_eq]
  split
  · rfl
  · next hrem =>
    obtain ⟨hmap, -⟩ := h
    obtain rfl : order = [] := by_contra fun ho => hrem (hspent ho)
    cases reo with
    | false => rw [List.map_eq_nil_iff.mp hmap]; rfl
    | true =>
      obtain ⟨⟨p, i⟩, rest, hahead, rfl, -⟩ := List.map_eq_cons_iff.mp hmap
      rw [hahead]
      rfl

theorem find_reo_eq_none {order : List Slot} {ahead : List (Slot × Nat)} (hmap : ahead.map Prod.fst = order)
    (horder : ∀ p ∈ order, p ≠ .reo) : ahead.find? (fun q => q.1 == .reo) = none := by
  refine List.find?_eq_none.mpr fun q hq => ?_
  have hne : q.1 ≠ .reo := horder q.1 (hmap ▸ List.mem_map_of_mem hq)
  simpa using hne

theorem Ahead.nextCall_none {c : Config} {x : Ctx} {order : List Slot} (h : Ahead c x order false)
    (hspent : order ≠ [] → x.rem = 0) : nextCall c x = none := by
  rw [h.nextCall_spent hspent]
  obtain ⟨hmap, horder⟩ := h
  exact find_reo_eq_none (by simpa using hmap) horder

/-- The REO-status ring is called last, whatever budget is left (R194, R198). -/
theorem Ahead.nextCall_reo {c : Config} {x : Ctx} {order : List Slot} (h : Ahead c x order true)
    (hspent : order ≠ [] → x.rem = 0) :
    ∃ i, nextCall c x = some (.reo, i) ∧ Ahead c (entered (.reo, i) x) [] false := by
  rw [h.nextCall_spent hspent]
  obtain ⟨hmap, horder⟩ := h
  obtain ⟨pre, last, hsplit, hpre, hlast⟩ := List.map_eq_append_iff.mp hmap
  obtain ⟨⟨p, i⟩, rest, rfl, rfl, hrest⟩ := List.map_eq_cons_iff.mp hlast
  obtain rfl : rest = [] := List.map_eq_nil_iff.mp hrest
  refine ⟨i, ?_, ?_, nofun⟩
  · rw [hsplit, List.find?_append, find_reo_eq_none hpre horder]
    rfl
  · rw [slotsAhead_entered hsplit]
    rfl

/-- What is ahead depends on the masks and the loop's place alone. -/
theorem Ahead.after_spend {c : Config} {x : Ctx} {order : List Slot} {reo : Bool} (h : Ahead c x order reo) (w : Word) :
    Ahead c (spend w x) order reo := h

/-- At the start of an invocation every ring that the masks name is ahead. -/
theorem ahead_started (c : Config) (x : Ctx) (r : Runner) (budget : Word) :
    Ahead c (started r budget x) (budgetedRings c x) (x.reoMask.getLsbD 0) := by
  refine ⟨?_, ?_⟩
  · have hall : (slotsAhead c (started r budget x)).map Prod.fst = (loopSlots c).filter (Slot.present x) := by
      show ((loopSlots c).zipIdx.filter (Slot.present x ∘ Prod.fst)).map Prod.fst = _
      rw [← List.filter_map, List.zipIdx_map_fst]
    have hsingle : [Slot.rxExc, .rxRel] = [.rxExc] ++ [.rxRel] := rfl
    rw [hall, loopSlots, hsingle]
    simp only [List.filter_append, List.filter_map, List.filter_singleton, Bool.cond_eq_ite, budgetedRings,
      List.append_assoc]
    rfl
  · simp only [budgetedRings, List.mem_append, List.mem_map, List.mem_ite_nil_right, List.mem_singleton]
    rintro p (((⟨i, -, rfl⟩ | ⟨-, rfl⟩) | ⟨-, rfl⟩) | ⟨i, -, rfl⟩) <;> nofun

/-! ### One call -/

/-- `s` once the calls `es` have left record `x` of context `c`, the environment becoming `e` (R195, R225). -/
def invoked (c : Nat) (x : Ctx) (es : List Event) (e : Env) (s : State) : State :=
  setCtx c x { s with handlerOverrun := s.handlerOverrun || overrun es, hist := s.hist ++ es, env := e }

theorem invoked_ctx_same {c : Nat} (hc : c < 16) (x : Ctx) (es : List Event) (e : Env) (s : State) :
    (invoked c x es e s).ctx c = x := setCtx_ctx_same hc x _

theorem invoked_ctx_other {c d : Nat} (hd : d ≠ c) (x : Ctx) (es : List Event) (e : Env) (s : State) :
    (invoked c x es e s).ctx d = s.ctx d := setCtx_ctx_other hd.symm x _

theorem invoked_nil (c : Nat) (s : State) : invoked c (s.ctx c) [] s.env s = s := by
  have h := setCtx_self c s
  simpa [invoked, overrun] using h

theorem overrun_append (es fs : List Event) : overrun (es ++ fs) = (overrun es || overrun fs) := List.any_append

/-- Calls after calls are the calls of both. -/
theorem invoked_invoked (c : Nat) (x y : Ctx) (es fs : List Event) (d e : Env) (s : State) :
    invoked c y fs e (invoked c x es d s) = invoked c y (es ++ fs) e s := by
  simp [invoked, setCtx, overrun_append, Bool.or_assoc]

theorem handlerSlot_handlerOp (c : Nat) (b w : Word) (p : Slot) : handlerSlot (handlerOp c b w p) = some p := by
  cases p <;> rfl

theorem handlerBudget_handlerOp (c : Nat) (b w : Word) {p : Slot} (hp : p ≠ .reo) :
    handlerBudget (handlerOp c b w p) = some (b.toNat, w.toNat) := by
  cases p with
  | reo => exact absurd rfl hp
  | tx | rxExc | rxRel | rxDst => rfl

/-- `Account` spends the work, and raises `FAULT` bit 0 exactly when it exceeds the budget left (R195). -/
theorem account_setCtx {c : Nat} (hc : c < 16) (w : Word) (x : Ctx) (s : State) :
    account c w (setCtx c x s) =
      setCtx c (spend w x) { s with handlerOverrun := s.handlerOverrun || decide (x.rem.toNat < w.toNat) } := by
  unfold account spend
  dsimp only
  rw [setCtx_ctx_same hc]
  split
  · next h => rw [decide_eq_true h, Bool.or_true]; simp [setCtx, raiseHandlerOverrun]
  · next h => rw [decide_eq_false h, Bool.or_false]; simp [setCtx]

/-- A budgeted handler is given the whole remaining budget, and its work is spent (R192, R195). -/
theorem callHandler_budgeted (a : Agent) {c : Nat} (hc : c < 16) {p : Slot × Nat} (hp : p.1 ≠ .reo) (s : State) :
    ∃ w e, callHandler a c p s =
      invoked c (spend w (entered p (s.ctx c))) [⟨a, handlerOp c (s.ctx c).rem w p.1⟩] e s := by
  have henv := drawWork_env p.1.ringId (s.ctx c).rem (enterSlot c p s)
  unfold callHandler
  dsimp only
  rw [if_pos (p.1.budgeted_iff.mpr hp)]
  generalize drawWork p.1.ringId (s.ctx c).rem (enterSlot c p s) = d at henv
  obtain ⟨w, u⟩ := d
  dsimp only at henv ⊢
  have hrecord : record a (handlerOp c (s.ctx c).rem w p.1) u = setCtx c (entered p (s.ctx c))
      { s with hist := s.hist ++ [⟨a, handlerOp c (s.ctx c).rem w p.1⟩], env := u.env } := by
    rw [henv]
    rfl
  have hover : overrun [⟨a, handlerOp c (s.ctx c).rem w p.1⟩] = decide ((s.ctx c).rem.toNat < w.toNat) := by
    simp [overrun, handlerBudget_handlerOp c _ w hp]
  refine ⟨w, u.env, ?_⟩
  rw [hrecord, account_setCtx hc, invoked, hover]
  rfl

/-- The REO-status handler is given no budget and spends none (R198). -/
theorem callHandler_reo (a : Agent) (c i : Nat) (s : State) :
    ∃ e, callHandler a c (.reo, i) s = invoked c (entered (.reo, i) (s.ctx c)) [⟨a, .handlerReoStatus c⟩] e s := by
  have hcall : callHandler a c (.reo, i) s = drainReo (record a (.handlerReoStatus c) (enterSlot c (.reo, i) s)) := rfl
  have hover : overrun [⟨a, .handlerReoStatus c⟩] = false := rfl
  rw [hcall, drainReo]
  split
  · exact ⟨_, by rw [invoked, hover, Bool.or_false]; rfl⟩
  · exact ⟨s.env, by rw [invoked, hover, Bool.or_false]; rfl⟩

/-! ### The calls of an invocation -/

/-- Agent `a`, serving context `c`, comes from `s` to `t` in `n` handler calls. -/
inductive Calls (a : Agent) (c : Nat) : Nat → State → State → Prop
  | refl (s : State) : Calls a c 0 s s
  | call {n : Nat} {s u t : State} (hcall : loopStep a c s = some u) (hrest : Calls a c n u t) : Calls a c (n + 1) s t

theorem loopStep_eq_some {a : Agent} {c : Nat} {p : Slot × Nat} {s u : State}
    (hp : nextCall s.cfg (s.ctx c) = some p) (hu : callHandler a c p s = u) : loopStep a c s = some u := by
  rw [loopStep, hp, ← hu]
  rfl

theorem loopStep_eq_none {a : Agent} {c : Nat} {s : State} (h : nextCall s.cfg (s.ctx c) = none) :
    loopStep a c s = none := by
  rw [loopStep, h]
  rfl

theorem Advanced.refl (x : Ctx) : Advanced x x := ⟨rfl, le_rfl⟩

theorem Advanced.trans {x y z : Ctx} (hxy : Advanced x y) (hyz : Advanced y z) : Advanced x z := by
  obtain ⟨hy, hle⟩ := hxy
  obtain ⟨hz, hle'⟩ := hyz
  refine ⟨?_, hle'.trans hle⟩
  rw [hz, hy]

theorem advanced_entered (p : Slot × Nat) (x : Ctx) : Advanced x (entered p x) := ⟨rfl, le_rfl⟩

theorem advanced_spend (w : Word) (x : Ctx) : Advanced x (spend w x) := ⟨rfl, spend_rem_le w x⟩

theorem spend_rem_toNat (w : Word) (x : Ctx) : (spend w x).rem.toNat = x.rem.toNat - w.toNat := by
  unfold spend
  dsimp only
  split
  · next h => rw [Nat.sub_eq_zero_of_le h.le]; rfl
  · next h => exact BitVec.toNat_sub_of_le (BitVec.le_def.mpr (Nat.le_of_not_lt h))

/-- The record of a context whose invocation ends is the one that the statements speak of. -/
theorem Advanced.finished_started {r : Runner} {budget : Word} {x y : Ctx} (h : Advanced (started r budget x) y) :
    finished y = servedCtx x budget.toNat y.rem.toNat := by
  obtain ⟨hy, hle⟩ := h
  have hwithin : y.rem ≤ budget := BitVec.le_def.mpr hle
  have hused : BitVec.ofNat 32 (budget.toNat - y.rem.toNat) = budget - y.rem := by
    refine BitVec.eq_of_toNat_eq ?_
    rw [BitVec.toNat_sub_of_le hwithin, BitVec.toNat_ofNat,
      Nat.mod_eq_of_lt ((Nat.sub_le _ _).trans_lt budget.isLt)]
  unfold servedCtx
  rw [hused, BitVec.ofNat_toNat, BitVec.ofNat_toNat, BitVec.setWidth_eq, BitVec.setWidth_eq]
  generalize y.rem = left at hy ⊢
  rw [hy]
  rfl

/-- The invocation's end when no budgeted ring is ahead, or no budget left. -/
theorem serves_spent (a : Agent) (c : Nat) (order : List Slot) (reo : Bool) {budget : Nat}
    (hspent : order ≠ [] → budget = 0) :
    Serves a c order reo budget (if reo then [⟨a, .handlerReoStatus c⟩] else []) budget := by
  refine ⟨⟨[], List.nil_prefix, fun h => hspent h.symm, ?_⟩, ?_, ?_, le_rfl⟩
  · cases reo <;> rfl
  · cases reo with
    | false => nofun
    | true => exact fun v hv => List.mem_singleton.mp hv ▸ ⟨rfl, .reo, 0, 0, rfl⟩
  · cases reo <;> rfl

/-- A call of a budgeted ring in front of the calls of the others (R192, R194, R195). -/
theorem Serves.cons {a : Agent} {c : Nat} {p : Slot} {order : List Slot} {reo : Bool} {b w : Word} {es : List Event}
    {left : Nat} (hp : p ≠ .reo) (hb : b ≠ 0) (h : Serves a c order reo (b.toNat - w.toNat) es left) :
    Serves a c (p :: order) reo b.toNat (⟨a, handlerOp c b w p⟩ :: es) left := by
  obtain ⟨⟨done, hdone, hrest, hslots⟩, hagent, hacc, hleft⟩ := h
  refine ⟨⟨p :: done, List.cons_prefix_cons.mpr ⟨rfl, hdone⟩, fun h => hrest fun e => h (e ▸ rfl), ?_⟩,
    List.forall_mem_cons.mpr ⟨⟨rfl, p, b, w, rfl⟩, hagent⟩, ?_, hleft.trans (Nat.sub_le _ _)⟩
  · rw [List.map_cons, handlerSlot_handlerOp, hslots]
    rfl
  · rw [Accounted, handlerBudget_handlerOp c b w hp]
    exact ⟨rfl, Nat.pos_of_ne_zero fun h => hb (BitVec.eq_of_toNat_eq h), hacc⟩

/-- From `s`, within `n` calls, the invocation of context `c` by agent `a` has no call left to make, having served the rings
`order` and, where `reo`, the REO-status ring with the budget that `s` has left. -/
def RunsOut (a : Agent) (c n : Nat) (order : List Slot) (reo : Bool) (s : State) : Prop :=
  ∃ m ≤ n, ∃ y es e, Advanced (s.ctx c) y ∧ Serves a c order reo (s.ctx c).rem.toNat es y.rem.toNat ∧
    Calls a c m s (invoked c y es e s) ∧ loopStep a c (invoked c y es e s) = none

/-- Once no budgeted ring can be called the REO-status ring's handler is, where the ring is present, and then none (R198). -/
theorem Ahead.runsOut_spent (a : Agent) {c : Nat} (hc : c < 16) {order : List Slot} {reo : Bool} {s : State}
    (h : Ahead s.cfg (s.ctx c) order reo) (hspent : order ≠ [] → (s.ctx c).rem = 0) : RunsOut a c 1 order reo s := by
  have hserves := serves_spent a c order reo (budget := (s.ctx c).rem.toNat) fun ho => by rw [hspent ho]; rfl
  cases reo with
  | false =>
    have hend : invoked c (s.ctx c) [] s.env s = s := invoked_nil c s
    refine ⟨0, Nat.zero_le _, s.ctx c, [], s.env, .refl _, hserves, ?_, ?_⟩ <;> rw [hend]
    · exact .refl s
    · exact loopStep_eq_none (h.nextCall_none hspent)
  | true =>
    obtain ⟨i, hnext, hahead⟩ := h.nextCall_reo hspent
    obtain ⟨e, hcall⟩ := callHandler_reo a c i s
    refine ⟨1, le_rfl, entered (.reo, i) (s.ctx c), [⟨a, .handlerReoStatus c⟩], e, advanced_entered _ _, hserves,
      .call (loopStep_eq_some hnext hcall) (.refl _), loopStep_eq_none ?_⟩
    rw [invoked_ctx_same hc]
    exact hahead.nextCall_none (absurd rfl)

/-- The call of a budgeted ring, and then the rest of the invocation. -/
theorem RunsOut.cons {a : Agent} {c n i : Nat} (hc : c < 16) {p : Slot} {order : List Slot} {reo : Bool} {w : Word} {d : Env}
    {s : State} (hp : p ≠ .reo) (hrem : (s.ctx c).rem ≠ 0)
    (hcall : loopStep a c s =
      some (invoked c (spend w (entered (p, i) (s.ctx c))) [⟨a, handlerOp c (s.ctx c).rem w p⟩] d s))
    (h : RunsOut a c n order reo
      (invoked c (spend w (entered (p, i) (s.ctx c))) [⟨a, handlerOp c (s.ctx c).rem w p⟩] d s)) :
    RunsOut a c (n + 1) (p :: order) reo s := by
  obtain ⟨m, hm, y, es, e, hadv, hserves, hcalls, hend⟩ := h
  rw [invoked_ctx_same hc] at hadv hserves
  rw [spend_rem_toNat] at hserves
  rw [invoked_invoked] at hcalls hend
  exact ⟨m + 1, Nat.succ_le_succ hm, y, _, e, ((advanced_entered _ _).trans (advanced_spend w _)).trans hadv,
    hserves.cons hp hrem, .call hcall hcalls, hend⟩

/-- From wherever an invocation stands it comes to its end, and its calls are what R191 to R195 and R198 say. -/
theorem Ahead.runsOut (a : Agent) {c : Nat} (hc : c < 16) {order : List Slot} {reo : Bool} {s : State}
    (h : Ahead s.cfg (s.ctx c) order reo) : RunsOut a c (order.length + 1) order reo s := by
  induction order generalizing s with
  | nil => exact h.runsOut_spent a hc (absurd rfl)
  | cons p order ih =>
    by_cases hrem : (s.ctx c).rem = 0
    · obtain ⟨m, hm, hend⟩ := h.runsOut_spent a hc fun _ => hrem
      exact ⟨m, hm.trans (Nat.le_add_left _ _), hend⟩
    · have hp : p ≠ .reo := h.2 p List.mem_cons_self
      obtain ⟨i, hnext, hahead⟩ := h.nextCall_cons hrem
      obtain ⟨w, d, hcall⟩ := callHandler_budgeted a hc (p := (p, i)) hp s
      refine .cons hc hp hrem (loopStep_eq_some hnext hcall) (ih ?_)
      rw [invoked_ctx_same hc]
      exact hahead.after_spend w

end Sys2Proof.Machine

namespace Sys2Proof.Machine

/-! ## `SERVICE` from acceptance to completion or hold (R190 to R199) -/

/-- Settles O35: the first step raises the error. -/
theorem serviceOfUnknownContextFails : Obligations.ServiceOfUnknownContextFails := by
  intro s c hp hc
  have hbegin : beginCommand (.service c) s = complete .configErr 0 0 (setOp .service s) := by
    show beginService c s = _
    rw [beginService, if_neg (Nat.not_lt.mpr hc)]
    rfl
  rw [exec_start hp, hbegin, runSeq_complete]
  rfl

/-- `SERVICE` of a context of the table comes to the claim of the context (R190). -/
theorem beginCommand_service {c : Nat} {s : State} (hc : c < s.cfg.numCtx) :
    beginCommand (.service c) s = goto (.serviceClaim c) (setOp .service s) := by
  show beginService c s = _
  rw [beginService, if_pos hc]

/-- Settles O36: the command is held at the claim. -/
theorem serviceWaitsForABusyContext : Obligations.ServiceWaitsForABusyContext := by
  intro s c hp hc hb
  have hheld : seqStopped (goto (.serviceClaim c) (setOp .service s)) = true := hb
  refine ⟨goto (.serviceClaim c) (setOp .service s), ?_, rfl, rfl⟩
  rw [exec_start hp, beginCommand_service hc, runSeq_of_stopped hheld]

/-- `s` once `SERVICE` has claimed the context with the sampled budget (R190). -/
def claimed (c : Nat) (s : State) : State := serviceClaimStep c (goto (.serviceClaim c) (setOp .service s))

theorem claimed_eq (c : Nat) (s : State) :
    claimed c s = setCtx c (started .seq s.seq.arg (s.ctx c))
      { s with seq := { s.seq with op := .service, pos := .serving c } } := rfl

theorem claimed_ctx_same {c : Nat} (hc : c < 16) (s : State) :
    (claimed c s).ctx c = started .seq s.seq.arg (s.ctx c) := setCtx_ctx_same hc _ _

theorem seqStep_serving {c : Nat} {s : State} (hp : s.seq.pos = .serving c) :
    seqStopped s = false ∧ seqStep s = .next (servingStep c s) := by
  have hheld : seqHeld s = false := by rw [seqHeld, hp]
  refine ⟨by rw [seqStopped, hp]; exact hheld, ?_⟩
  rw [seqStep, if_neg (by rw [hheld]; decide), posStep, hp]

/-- Each call is one step of the sequencer (R190). -/
theorem Calls.run_eq {c k : Nat} {s t : State} (h : Calls .seq c k s t) (hp : s.seq.pos = .serving c) (n : Nat) :
    runSeq (k + n) s = runSeq n t ∧ t.seq.pos = .serving c := by
  induction h with
  | refl s => exact ⟨by rw [Nat.zero_add], hp⟩
  | @call k s u t hcall hrest ih =>
    obtain ⟨hgo, hstep⟩ := seqStep_serving hp
    have hu : servingStep c s = u := by rw [servingStep, hcall]
    obtain ⟨cs, ho, hi, e, hframe⟩ := loopStep_frame hcall
    obtain ⟨hrun, hq⟩ := ih (by rw [hframe]; exact hp)
    exact ⟨by rw [Nat.add_right_comm, runSeq_next hgo (hu ▸ hstep), hrun], hq⟩

/-- `s` once `SERVICE` has ended the invocation that left record `y` of its context, and has completed (R190). -/
def serviceDone (c : Nat) (y : Ctx) (es : List Event) (e : Env) (s : State) : State :=
  complete .ok (finished y).lastWork 0 (invoked c (finished y) es e s)

/-- The step that finds no call left to make ends the invocation and the command (R190, R191). -/
theorem servingStep_done {c : Nat} (hc : c < 16) {y : Ctx} {es : List Event} {e : Env} {s : State}
    (hend : loopStep .seq c (invoked c y es e (claimed c s)) = none) :
    servingStep c (invoked c y es e (claimed c s)) = serviceDone c y es e s := by
  have hfinish : endInvocation c (invoked c y es e (claimed c s)) =
      setCtx c (finished y) (invoked c y es e (claimed c s)) := by rw [endInvocation_eq, invoked_ctx_same hc]
  rw [servingStep, hend, hfinish]
  dsimp only
  rw [setCtx_ctx_same hc]
  simp [serviceDone, complete, claimed_eq, invoked, setCtx]

/-- `SERVICE` of an idle context claims it, makes the calls of the invocation, and completes. -/
theorem exec_service_of_calls {c k : Nat} {y : Ctx} {es : List Event} {e : Env} {s : State} (hp : s.seq.pos = .start)
    (hc : c < s.cfg.numCtx) (hc16 : c < 16) (hb : (s.ctx c).busy = false) (hk : k ≤ 19)
    (hcalls : Calls .seq c k (claimed c s) (invoked c y es e (claimed c s)))
    (hend : loopStep .seq c (invoked c y es e (claimed c s)) = none) :
    exec (.service c) s = .next (serviceDone c y es e s) := by
  obtain ⟨n, hfuel⟩ := seqFuel_split hk
  have hfree : seqHeld (goto (.serviceClaim c) (setOp .service s)) = false := hb
  have hgo : seqStopped (goto (.serviceClaim c) (setOp .service s)) = false := hb
  have hclaim : seqStep (goto (.serviceClaim c) (setOp .service s)) = .next (claimed c s) := by
    rw [seqStep, if_neg (by rw [hfree]; decide)]
    rfl
  obtain ⟨hrun, hq⟩ := hcalls.run_eq rfl (n + 1)
  obtain ⟨hserving, hstep⟩ := seqStep_serving hq
  rw [exec_start hp, beginCommand_service hc, hfuel, show k + (n + 2) = k + (n + 1) + 1 from rfl, runSeq_next hgo hclaim,
    hrun, runSeq_next hserving hstep, servingStep_done hc16 hend]
  exact runSeq_of_stopped rfl n

/-- R14 allows at most 8 Tx and 8 Rx rings. -/
theorem budgetedRings_length_le {c : Config} (hv : configValid c = true) (x : Ctx) : (budgetedRings c x).length ≤ 18 := by
  obtain ⟨-, -, hdisp, -⟩ := (configValid_iff c).mp hv
  simp only [dispParamsValid, Bool.and_eq_true, decide_eq_true_eq] at hdisp
  have htx := List.length_filter_le (fun i => x.txMask.getLsbD i) (List.range c.numTxRings)
  have hdst := List.length_filter_le (fun i => x.rxDstMask.getLsbD i) (List.range c.numRxRings)
  have hone (b : Bool) (p : Slot) : (if b then [p] else []).length ≤ 1 := by cases b <;> simp
  have hexc := hone (x.rxExcMask.getLsbD 0) .rxExc
  have hrel := hone (x.rxRelMask.getLsbD 0) .rxRel
  rw [List.length_range] at htx hdst
  simp only [budgetedRings, List.length_append, List.length_map]
  omega

/-- Settles O37: the invocation that `SERVICE` claims comes to its end as `Ahead.runsOut` says. -/
theorem serviceDrainsInPriorityOrder : Obligations.ServiceDrainsInPriorityOrder := by
  intro s n c hv hacc hc hb
  obtain ⟨hp, -, -, rfl⟩ := hacc
  have hc16 : c < 16 := hc.trans_le (numCtx_le hv)
  have hctx := claimed_ctx_same hc16 s
  have hahead : Ahead (claimed c s).cfg ((claimed c s).ctx c) (budgetedRings s.cfg (s.ctx c))
      ((s.ctx c).reoMask.getLsbD 0) := by
    rw [hctx]
    exact ahead_started s.cfg (s.ctx c) .seq s.seq.arg
  obtain ⟨m, hm, y, es, e, hadv, hserves, hcalls, hend⟩ := hahead.runsOut .seq hc16
  have hlen := budgetedRings_length_le hv (s.ctx c)
  rw [hctx] at hadv hserves
  have hfinished : finished y = servedCtx (s.ctx c) (scalar s) y.rem.toNat := hadv.finished_started
  refine ⟨_, es, y.rem.toNat, exec_service_of_calls hp hc hc16 hb (by omega) hcalls hend, hserves, ?_⟩
  rw [serviceDone, hfinished]
  exact ⟨rfl, invoked_ctx_same hc16 _ _ _ _, fun d hd => invoked_ctx_other hd _ _ _ _, rfl⟩

/-- Settles O38: no ring is ahead of the claimed context. -/
theorem serviceOfEmptyMasksCallsNothing : Obligations.ServiceOfEmptyMasksCallsNothing := by
  intro s n c hv hacc hc hb htx hdst hexc hrel hreo
  obtain ⟨hp, -, -, rfl⟩ := hacc
  have hc16 : c < 16 := hc.trans_le (numCtx_le hv)
  have hctx := claimed_ctx_same hc16 s
  have hrings : budgetedRings s.cfg (s.ctx c) = [] := by simp [budgetedRings, htx, hdst, hexc, hrel]
  have hahead : Ahead (claimed c s).cfg ((claimed c s).ctx c) [] false := by
    have h := ahead_started s.cfg (s.ctx c) .seq s.seq.arg
    rw [hrings, hreo] at h
    rw [hctx]
    exact h
  have hend : loopStep .seq c (claimed c s) = none := loopStep_eq_none (hahead.nextCall_none (absurd rfl))
  have hnone : invoked c (started .seq s.seq.arg (s.ctx c)) [] s.env (claimed c s) = claimed c s := by
    rw [← hctx]
    exact invoked_nil c (claimed c s)
  have hexec := exec_service_of_calls hp hc hc16 hb (Nat.zero_le 19) (hnone.symm ▸ .refl (claimed c s))
    (hnone.symm ▸ hend)
  have hfinished : finished (started .seq s.seq.arg (s.ctx c)) = servedCtx (s.ctx c) (scalar s) (scalar s) :=
    (Advanced.refl _).finished_started
  have hunused : (servedCtx (s.ctx c) (scalar s) (scalar s)).lastWork = 0 := by simp [servedCtx]
  rw [serviceDone, hfinished, hunused] at hexec
  refine ⟨_, hexec, rfl, rfl, ?_⟩
  rw [complete_ctx_get, invoked_ctx_same hc16]
  exact ⟨rfl, rfl, hunused, rfl, fun d hd => invoked_ctx_other hd _ _ _ _, by simp [complete, invoked, setCtx, overrun]⟩

end Sys2Proof.Machine

namespace Sys2Proof.Machine

/-! ## A pass of the poll agent (R257, R258) -/

/-! ### One context of the pass -/

/-- Where a pass stands that has done with the contexts below `c` (R257). -/
def passAt (n c : Nat) : PollPos := if c < n then .claim c else .restart

theorem pollAfter_eq (c : Nat) (s : State) : pollAfter c s = { s with poll := passAt s.cfg.numCtx (c + 1) } := rfl

/-- `s` once the poll agent has claimed context `c` with the maximal budget (R257). -/
def pollClaimed (c : Nat) (s : State) : State := { startInvocation .poll budgetMax c s with poll := .serving c }

theorem pollClaimed_eq (c : Nat) (s : State) :
    pollClaimed c s = setCtx c (started .poll budgetMax (s.ctx c)) { s with poll := .serving c } := rfl

theorem pollClaimed_ctx_same {c : Nat} (hc : c < 16) (s : State) :
    (pollClaimed c s).ctx c = started .poll budgetMax (s.ctx c) := setCtx_ctx_same hc _ _

theorem pollStep_claim {c : Nat} {s : State} (hq : s.poll = .claim c) (hb : (s.ctx c).busy = false) :
    pollStep s = pollClaimed c s := by
  rw [pollStep, hq]
  dsimp only
  rw [if_neg (by rw [hb]; decide)]
  rfl

theorem pollStep_call {c : Nat} {s u : State} (hq : s.poll = .serving c) (h : loopStep .poll c s = some u) :
    pollStep s = u := by
  rw [pollStep, hq]
  dsimp only
  rw [h]

theorem pollStep_end {c : Nat} {s : State} (hq : s.poll = .serving c) (h : loopStep .poll c s = none) :
    pollStep s = pollAfter c (endInvocation c s) := by
  rw [pollStep, hq]
  dsimp only
  rw [h]

/-- Each call is one step of the poll agent (R257). -/
theorem Calls.pollStep_iterate {c k : Nat} {s t : State} (h : Calls .poll c k s t) (hq : s.poll = .serving c) :
    pollStep^[k] s = t ∧ t.poll = .serving c := by
  induction h with
  | refl s => exact ⟨rfl, hq⟩
  | @call k s u t hcall hrest ih =>
    obtain ⟨cs, ho, hi, e, hframe⟩ := loopStep_frame hcall
    obtain ⟨hsteps, hserving⟩ := ih (by rw [hframe]; exact hq)
    exact ⟨by rw [Function.iterate_succ_apply, pollStep_call hq hcall, hsteps], hserving⟩

/-- The end of an invocation writes over the record that its calls left, and the pass moves on. -/
theorem pollAfter_endInvocation {c : Nat} (hc : c < 16) (y : Ctx) (es : List Event) (e : Env) (s : State) :
    pollAfter c (endInvocation c (invoked c y es e (pollClaimed c s))) = pollAfter c (invoked c (finished y) es e s) := by
  rw [endInvocation_eq, invoked_ctx_same hc]
  simp [pollAfter_eq, invoked, pollClaimed_eq, setCtx]

/-- `s` once a pass has served context `c` with the calls `es`, `left` of the budget being left, and has moved on (R257). -/
def passed (c : Nat) (es : List Event) (left : Nat) (e : Env) (s : State) : State :=
  pollAfter c (invoked c (servedCtx (s.ctx c) (2 ^ 32 - 1) left) es e s)

theorem passed_ctx_same {c : Nat} (hc : c < 16) (es : List Event) (left : Nat) (e : Env) (s : State) :
    (passed c es left e s).ctx c = servedCtx (s.ctx c) (2 ^ 32 - 1) left := invoked_ctx_same hc _ _ _ _

theorem passed_ctx_other {c d : Nat} (hd : d ≠ c) (es : List Event) (left : Nat) (e : Env) (s : State) :
    (passed c es left e s).ctx d = s.ctx d := invoked_ctx_other hd _ _ _ _

/-- A pass that finds context `c` idle claims it, makes the calls of a whole invocation with the maximal budget, ends it and
moves on: at most 21 steps (R257, R191). -/
theorem pollPass_serves_context {c : Nat} {s : State} (hv : configValid s.cfg = true) (hc : c < 16)
    (hq : s.poll = .claim c) (hb : (s.ctx c).busy = false) :
    ∃ n ≤ 21, ∃ es left e,
      Serves .poll c (budgetedRings s.cfg (s.ctx c)) ((s.ctx c).reoMask.getLsbD 0) (2 ^ 32 - 1) es left ∧
      pollStep^[n] s = passed c es left e s := by
  have hctx := pollClaimed_ctx_same hc s
  have hahead : Ahead (pollClaimed c s).cfg ((pollClaimed c s).ctx c) (budgetedRings s.cfg (s.ctx c))
      ((s.ctx c).reoMask.getLsbD 0) := by
    rw [hctx]
    exact ahead_started s.cfg (s.ctx c) .poll budgetMax
  obtain ⟨m, hm, y, es, e, hadv, hserves, hcalls, hend⟩ := hahead.runsOut .poll hc
  have hlen := budgetedRings_length_le hv (s.ctx c)
  obtain ⟨hsteps, hserving⟩ := hcalls.pollStep_iterate rfl
  rw [hctx] at hadv hserves
  have hfinished : finished y = servedCtx (s.ctx c) (2 ^ 32 - 1) y.rem.toNat := hadv.finished_started
  refine ⟨m + 2, by omega, es, y.rem.toNat, e, hserves, ?_⟩
  rw [Function.iterate_succ_apply, pollStep_claim hq hb, Function.iterate_succ_apply', hsteps, pollStep_end hserving hend,
    pollAfter_endInvocation hc, hfinished, passed]

/-! ### The contexts of the pass -/

/-- The calls of a pass over the `k` contexts from `c` on. -/
def passCalls (served : Nat → List Event) (c k : Nat) : List Event := (List.range' c k).flatMap served

theorem passCalls_succ (served : Nat → List Event) (c k : Nat) :
    passCalls served c (k + 1) = served c ++ passCalls served (c + 1) k := by
  rw [passCalls, List.range'_succ, List.flatMap_cons, passCalls]

theorem passCalls_congr {f g : Nat → List Event} {c k : Nat} (h : ∀ d, c ≤ d → f d = g d) :
    passCalls f c k = passCalls g c k :=
  List.flatMap_congr fun d hd => h d (List.mem_range'_1.mp hd).1

theorem overrun_passCalls (served : Nat → List Event) (c k : Nat) :
    overrun (passCalls served c k) = (List.range' c k).any fun d => overrun (served d) := List.any_flatMap

/-- `t` is `s` at the end of a pass that has served the `k` contexts from `c` on: the calls of context `d` were `served d`, and
`left d` of its budget was left (R257, R258). -/
structure PassEnds (c k : Nat) (served : Nat → List Event) (left : Nat → Nat) (s t : State) : Prop where
  serves : ∀ d, c ≤ d → d < c + k →
    Serves .poll d (budgetedRings s.cfg (s.ctx d)) ((s.ctx d).reoMask.getLsbD 0) (2 ^ 32 - 1) (served d) (left d) ∧
      t.ctx d = servedCtx (s.ctx d) (2 ^ 32 - 1) (left d)
  others : ∀ d, d < c ∨ c + k ≤ d → t.ctx d = s.ctx d
  frame : t = { s with
    ctxs := t.ctxs, handlerOverrun := s.handlerOverrun || overrun (passCalls served c k), poll := .idle,
    disp := { s.disp with timer := .running },
    hist := s.hist ++ passCalls served c k ++ [⟨.poll, .timerStart s.pollPeriod⟩], env := t.env }

/-- With no context left the timer is started and the pass is over (R258). -/
theorem passEnds_restart {c : Nat} {s : State} (hq : s.poll = .restart) (served : Nat → List Event) (left : Nat → Nat) :
    PassEnds c 0 served left s (pollStep s) := by
  have hstep : pollStep s = { hostTimerStart .poll s with poll := .idle } := by rw [pollStep, hq]
  rw [hstep]
  refine ⟨fun d hle hlt => absurd hle (Nat.not_le.mpr hlt), fun _ _ => rfl, ?_⟩
  simp [passCalls, overrun, hostTimerStart, setTimer, record]

/-- A pass from `c + 1` on, after context `c` has been served, is a pass from `c` on. -/
theorem PassEnds.cons {c k l : Nat} {served : Nat → List Event} {left : Nat → Nat} {es : List Event} {e : Env} {s t : State}
    (hc : c < 16)
    (hserves : Serves .poll c (budgetedRings s.cfg (s.ctx c)) ((s.ctx c).reoMask.getLsbD 0) (2 ^ 32 - 1) es l)
    (h : PassEnds (c + 1) k served left (passed c es l e s) t) :
    PassEnds c (k + 1) (Function.update served c es) (Function.update left c l) s t := by
  have hcalls : passCalls (Function.update served c es) c (k + 1) = es ++ passCalls served (c + 1) k := by
    rw [passCalls_succ, Function.update_self, passCalls_congr fun d hd => Function.update_of_ne (show d ≠ c by omega) _ _]
  refine ⟨fun d hle hlt => ?_, fun d hd => ?_, ?_⟩
  · by_cases hd : d = c
    · subst hd
      rw [Function.update_self, Function.update_self, h.others d (.inl d.lt_succ_self), passed_ctx_same hc]
      exact ⟨hserves, rfl⟩
    · have hrest := h.serves d (by omega) (by omega)
      rw [passed_ctx_other hd] at hrest
      rw [Function.update_of_ne hd, Function.update_of_ne hd]
      exact hrest
  · rw [h.others d (by omega), passed_ctx_other (by omega)]
  · rw [hcalls, overrun_append, ← Bool.or_assoc, ← List.append_assoc]
    exact h.frame

/-- A pass that has come to context `c` ends, `k` contexts being left: at most 21 steps for each, and one for the timer. -/
theorem pollPass_ends (k : Nat) {c : Nat} {s : State} (hv : configValid s.cfg = true) (hk : c + k = s.cfg.numCtx)
    (hq : s.poll = passAt s.cfg.numCtx c) (hidle : ∀ d < s.cfg.numCtx, (s.ctx d).busy = false) :
    ∃ n ≤ 21 * k + 1, ∃ served left, PassEnds c k served left s (pollStep^[n] s) := by
  induction k generalizing c s with
  | zero =>
    have hrestart : s.poll = .restart := by rw [hq, passAt, if_neg (by omega)]
    exact ⟨1, le_rfl, fun _ => [], fun _ => 0, passEnds_restart hrestart _ _⟩
  | succ k ih =>
    have hc : c < s.cfg.numCtx := by omega
    have hc16 : c < 16 := hc.trans_le (numCtx_le hv)
    have hclaim : s.poll = .claim c := by rw [hq, passAt, if_pos hc]
    obtain ⟨m, hm, es, l, e, hserves, hsteps⟩ := pollPass_serves_context hv hc16 hclaim (hidle c hc)
    have hstill : ∀ d < s.cfg.numCtx, ((passed c es l e s).ctx d).busy = false := fun d hd => by
      by_cases hdc : d = c
      · rw [hdc, passed_ctx_same hc16]
        rfl
      · rw [passed_ctx_other hdc, hidle d hd]
    have hnext : c + 1 + k = s.cfg.numCtx := by omega
    obtain ⟨n, hn, served, left, hrest⟩ := ih (s := passed c es l e s) hv hnext rfl hstill
    refine ⟨n + m, by omega, Function.update served c es, Function.update left c l, ?_⟩
    rw [Function.iterate_add_apply, hsteps]
    exact hrest.cons hc16 hserves

/-- Settles O44: `pollPass_ends` from context `c`, of at most 16 contexts. -/
theorem pollPassesEnd : Obligations.PollPassesEnd := by
  intro s c hv hq hc hidle
  have hcount : c + (s.cfg.numCtx - c) = s.cfg.numCtx := Nat.add_sub_cancel' hc.le
  have hat : s.poll = passAt s.cfg.numCtx c := by rw [hq, passAt, if_pos hc]
  obtain ⟨n, hn, served, left, hserves, hothers, hframe⟩ := pollPass_ends _ hv hcount hat hidle
  have h16 := numCtx_le hv
  rw [hcount] at hserves hothers
  have hover : (pollStep^[n] s).handlerOverrun =
      (s.handlerOverrun || overrun (passCalls served c (s.cfg.numCtx - c))) := by rw [hframe]
  refine ⟨n, _, served, left, by omega, rfl, hserves, hothers, ?_, ?_⟩
  · rw [hover, overrun_passCalls]
  · rw [hover]
    exact hframe

end Sys2Proof.Machine

namespace Sys2Proof.Machine

/-! ## What starts a service pass (R251 to R254, R257) -/

/-! ### Interrupt events (R251, R252) -/

theorem deliver_unregistered {source : Nat} {s : State} (h : ∀ r ∈ s.disp.irqReg, r.source.toNat ≠ source) :
    deliver source s = s := by
  have hnone : s.disp.irqReg.find? (fun r => r.source.toNat == source) = none :=
    List.find?_eq_none.mpr fun r hr => by simpa using h r hr
  rw [deliver, hnone]

/-- An event of a registered source is coalesced with the request that is pending. -/
theorem deliver_of_pend {source : Nat} {s : State} {r : IrqRec}
    (h : s.disp.irqReg.find? (fun r => r.source.toNat == source) = some r) (hp : (s.ctx r.ctx.toNat).pend = true) :
    deliver source s = s := by
  rw [deliver, h]
  exact if_pos hp

theorem deliver_of_not_pend {source : Nat} {s : State} {r : IrqRec}
    (h : s.disp.irqReg.find? (fun r => r.source.toNat == source) = some r) (hp : (s.ctx r.ctx.toNat).pend = false) :
    deliver source s =
      setCtx r.ctx.toNat { s.ctx r.ctx.toNat with pend := true, pendBudget := s.svcBudget } s := by
  rw [deliver, h]
  exact if_neg (Bool.eq_false_iff.mp hp)

/-- Settles O39: the step is `deliver` on the state without the move. -/
theorem eventsRequestInvocations : Obligations.EventsRequestInvocations := by
  intro s source rest hv hm
  have hstep : step s = .next (deliver source (moved rest s)) := step_listed hv hm
  rw [hstep]
  refine ⟨fun hr => ?_, fun r hr => ⟨fun hp => ?_, fun hp => ?_⟩⟩
  · exact congrArg Host.Outcome.next (deliver_unregistered hr)
  · exact congrArg Host.Outcome.next (deliver_of_pend hr hp)
  · rw [deliver_of_not_pend (s := moved rest s) hr hp]
    exact ⟨_, rfl, setCtx_ctx_same r.ctx.isLt _ _, fun d hd => setCtx_ctx_other hd.symm _ _, rfl⟩

/-! ### The service agents (R253, R254) -/

theorem svcStep_of_other_runner {c : Nat} {s : State} (hb : (s.ctx c).busy = true) (hr : (s.ctx c).runner ≠ .svc) :
    svcStep c s = s := by simp [svcStep, hb, hr]

theorem svcStep_of_not_pend {c : Nat} {s : State} (hb : (s.ctx c).busy = false) (hp : (s.ctx c).pend = false) :
    svcStep c s = s := by simp [svcStep, hb, hp]

theorem svcStep_of_pend {c : Nat} {s : State} (hc : c < s.cfg.numCtx) (hb : (s.ctx c).busy = false)
    (hp : (s.ctx c).pend = true) : svcStep c s = startPending c s := by simp [svcStep, hc, hb, hp]

/-- Settles O40: the step is `svcStep` on the state without the move. -/
theorem pendingInvocationsStart : Obligations.PendingInvocationsStart := by
  intro s c rest hv hm hc
  have hc16 : c < 16 := hc.trans_le (numCtx_le hv)
  have hstep : step s = .next (svcStep c (moved rest s)) := step_listed hv hm
  rw [hstep]
  refine ⟨fun ⟨hb, hr⟩ => ?_, fun ⟨hb, hp⟩ => ?_, fun ⟨hb, hp⟩ => ?_⟩
  · exact congrArg Host.Outcome.next (svcStep_of_other_runner hb hr)
  · exact congrArg Host.Outcome.next (svcStep_of_not_pend hb hp)
  · rw [svcStep_of_pend (s := moved rest s) hc hb hp, startPending_eq]
    exact ⟨_, rfl, setCtx_ctx_same hc16 _ _, fun d hd => setCtx_ctx_other hd.symm _ _, rfl⟩

/-! ### The timer (R257, R259) -/

/-- Settles O43: the step is `timerFire` on the state without the move. -/
theorem timerFiresOnlyWhileRunning : Obligations.TimerFiresOnlyWhileRunning := by
  intro s rest hv hm
  have hstep : step s = .next (timerFire (moved rest s)) := step_listed hv hm
  rw [hstep]
  refine ⟨fun hrun => ?_, fun hrun => ?_⟩
  · exact congrArg Host.Outcome.next (if_pos hrun)
  · exact congrArg Host.Outcome.next (if_neg hrun)

end Sys2Proof.Machine

namespace Sys2Proof.Machine

/-! ## A word that is no command (R98, R245) -/

/-- Settles O6: the write is accepted as any word is, and the sequencer's turn is `runAccepted_illegal`. -/
theorem illegalWordChangesNothingElse : Obligations.IllegalWordChangesNothingElse := by
  intro s w e rest hv hseq hd hm
  have hidle : s.seq.pos = .idle := by rw [hseq]
  obtain ⟨u, hwrite, hb, -, -, -, -, -, hu⟩ := commandWriteIsAcceptedWhenIdle s w _ hv hm hidle
  have hcfg : u.cfg = s.cfg := by rw [hu]; rfl
  have hmoves : u.env.moves = .command :: rest := by rw [hu]; rfl
  have hcmd : u.cmd = w := by rw [hu]
  have hturn : step u = runAccepted (moved rest u) := step_listed (hcfg ▸ hv) hmoves
  refine ⟨u, hwrite, hb, ?_⟩
  rw [hturn, runAccepted_illegal (s := moved rest u) hb (hcmd ▸ hd), hu, ← hseq]
  rfl

end Sys2Proof.Machine

namespace Sys2Proof.Machine

/-! ## A `CMD` write while busy, and whole-system reset (R92, R286, R280) -/

/-- A `CMD` write that finds a command running leaves its overrun flag and nothing else (R92 (d), R286). -/
theorem hostWriteAt_cmd_busy {s : State} (w : Word) (h : s.seq.pos ≠ .idle) :
    hostWriteAt 4 (s.cfg.mgrBase + 0x004) w s = raiseCmdOverrun s := by
  have hb : s.busy = true := (busy_iff s).mpr h
  simp [hostWrite, accessOk, writeCmd, hb]

/-- Settles O8: the step is the dropped write on the state without the move. -/
theorem commandWriteIsDroppedWhenBusy : Obligations.CommandWriteIsDroppedWhenBusy := by
  intro s w rest hv hm hbusy
  have hstep : step s = .next (hostWriteAt 4 (s.cfg.mgrBase + 0x004) w (moved rest s)) := step_listed hv hm
  have hdrop : hostWriteAt 4 (s.cfg.mgrBase + 0x004) w (moved rest s) = raiseCmdOverrun (moved rest s) :=
    hostWriteAt_cmd_busy w hbusy
  rw [hstep, hdrop]
  rfl

/-- Settles O50: the step is `systemReset` on the state without the move. -/
theorem resetLeavesTheResetState : Obligations.ResetLeavesTheResetState := by
  intro s strap rest hv hm
  have hstep : step s = .next (systemReset strap (moved rest s)) := step_listed hv hm
  exact ⟨_, hstep, rfl, rfl, rfl, rfl, rfl, rfl, rfl, rfl⟩

end Sys2Proof.Machine

namespace Sys2Proof.Machine

/-! ## An event-started invocation to its end (R191, R254, R297) -/

/-- An invocation of context `c` that `SVC[c]` runs is under way (R254). -/
structure SvcRuns (c : Nat) (s : State) : Prop where
  configured : c < s.cfg.numCtx
  busy : (s.ctx c).busy = true
  runner : (s.ctx c).runner = .svc

theorem SvcRuns.svcStep_eq {c : Nat} {s : State} (h : SvcRuns c s) : svcStep c s = serviceStep (.svc c) c s := by
  obtain ⟨hc, hb, hr⟩ := h
  simp [svcStep, hc, hb, hr]

/-- A handler call is one step of the agent, and the invocation goes on (R191). -/
theorem SvcRuns.call {c : Nat} {s u : State} (h : SvcRuns c s) (hcall : loopStep (.svc c) c s = some u) :
    svcStep c s = u ∧ SvcRuns c u := by
  refine ⟨by rw [h.svcStep_eq, serviceStep, hcall], ?_⟩
  obtain ⟨hc, hb, hr⟩ := h
  obtain ⟨x, ho, o, e, ⟨hx, -⟩, rfl⟩ := loopStep_eq hcall
  have hkeep {α : Type} (f : Ctx → α) (hf : f x = f (s.ctx c)) := ctx_setCtx_congr (s := { s with
    handlerOverrun := s.handlerOverrun || ho, hist := s.hist ++ [⟨.svc c, o⟩], env := e }) hf c
  exact ⟨hc, (hkeep Ctx.busy (by rw [hx])).trans hb, (hkeep Ctx.runner (by rw [hx])).trans hr⟩

/-- Each call is one step of the agent, and the context is busy until they are made (R254). -/
theorem Calls.svcStep_iterate {c k : Nat} {s t : State} (h : Calls (.svc c) c k s t) (hrun : SvcRuns c s) :
    (svcStep c)^[k] s = t ∧ SvcRuns c t ∧ ∀ j ≤ k, (((svcStep c)^[j] s).ctx c).busy = true := by
  induction h with
  | refl s =>
    refine ⟨rfl, hrun, fun j hj => ?_⟩
    obtain rfl := Nat.le_zero.mp hj
    exact hrun.busy
  | @call k s u t hcall hrest ih =>
    obtain ⟨hstep, hrun'⟩ := hrun.call hcall
    obtain ⟨hsteps, hend, hbusy⟩ := ih hrun'
    refine ⟨by rw [Function.iterate_succ_apply, hstep, hsteps], hend, fun j hj => ?_⟩
    cases j with
    | zero => exact hrun.busy
    | succ j =>
      rw [Function.iterate_succ_apply, hstep]
      exact hbusy j (Nat.le_of_succ_le_succ hj)

/-- From wherever it stands an event-started invocation makes its calls and ends, and its context is busy until then
(R191, R254). -/
theorem SvcRuns.ends {c : Nat} {s : State} (h : SvcRuns c s) (hc : c < 16) {order : List Slot} {reo : Bool}
    (hahead : Ahead s.cfg (s.ctx c) order reo) :
    ∃ k ≤ order.length + 1, ∃ y es e, Advanced (s.ctx c) y ∧
      Serves (.svc c) c order reo (s.ctx c).rem.toNat es y.rem.toNat ∧
      (svcStep c)^[k + 1] s = invoked c (finished y) es e s ∧
      ∀ j ≤ k, (((svcStep c)^[j] s).ctx c).busy = true := by
  obtain ⟨k, hk, y, es, e, hadv, hserves, hcalls, hend⟩ := hahead.runsOut (.svc c) hc
  obtain ⟨hsteps, hrun, hbusy⟩ := hcalls.svcStep_iterate h
  refine ⟨k, hk, y, es, e, hadv, hserves, ?_, hbusy⟩
  rw [Function.iterate_succ_apply', hsteps, hrun.svcStep_eq, serviceStep, hend]
  dsimp only
  rw [endInvocation_eq, invoked_ctx_same hc]
  simp [invoked, setCtx]

/-- The loop's rings but the last, which is the REO-status ring (R191). -/
theorem loopSlots_eq (c : Config) : ∃ l, loopSlots c = l ++ [.reo] ∧ l.length = c.numTxRings + 2 + c.numRxRings ∧
    ∀ p ∈ l, p ≠ .reo := by
  refine ⟨_, rfl, by simp; omega, ?_⟩
  simp only [List.mem_append, List.mem_map, List.mem_cons, List.not_mem_nil, or_false]
  rintro p ((⟨i, -, rfl⟩ | rfl | rfl) | ⟨i, -, rfl⟩) <;> nofun

/-- Wherever the loop stands, at most 18 budgeted rings are ahead, and the REO-status ring or not (R14, R191). -/
theorem exists_ahead {c : Config} (hv : configValid c = true) (x : Ctx) :
    ∃ order reo, Ahead c x order reo ∧ order.length ≤ 18 := by
  obtain ⟨l, hl, hlen, hbudgeted⟩ := loopSlots_eq c
  obtain ⟨-, -, hdisp, -⟩ := (configValid_iff c).mp hv
  simp only [dispParamsValid, Bool.and_eq_true, decide_eq_true_eq] at hdisp
  have hall : (slotsAhead c x).map Prod.fst = ((loopSlots c).drop x.next).filter (Slot.present x) := by
    show (((loopSlots c).zipIdx.drop x.next).filter (Slot.present x ∘ Prod.fst)).map Prod.fst = _
    rw [← List.filter_map, List.map_drop, List.zipIdx_map_fst]
  refine ⟨(l.drop x.next).filter (Slot.present x), decide (x.next ≤ l.length) && Slot.present x .reo,
    ⟨?_, fun p hp => hbudgeted p (List.mem_of_mem_drop (List.mem_of_mem_filter hp))⟩, ?_⟩
  · rw [hall, hl, List.drop_append, List.filter_append]
    congr 1
    by_cases hn : x.next ≤ l.length
    · rw [Nat.sub_eq_zero_of_le hn, List.drop_zero, List.filter_singleton, decide_eq_true hn, Bool.true_and,
        Bool.cond_eq_ite]
    · rw [List.drop_eq_nil_of_le (Nat.sub_pos_of_lt (Nat.lt_of_not_le hn)), decide_eq_false hn]
      rfl
  · have hle := List.length_filter_le (Slot.present x) (l.drop x.next)
    rw [List.length_drop] at hle
    omega

/-- The record in which `SVC[c]` starts a requested invocation (R254). -/
def svcStarted (x : Ctx) : Ctx := started .svc x.pendBudget { x with pend := false }

theorem svcRuns_started {c : Nat} {s : State} (hc : c < s.cfg.numCtx) (hc16 : c < 16) :
    SvcRuns c (setCtx c (svcStarted (s.ctx c)) s) := by
  have hctx := setCtx_ctx_same hc16 (svcStarted (s.ctx c)) s
  exact ⟨hc, by rw [hctx]; rfl, by rw [hctx]; rfl⟩

/-- Settles O42: a running invocation ends as `SvcRuns.ends` says, `exists_ahead` bounding its calls; a pending one starts,
with the rings of its masks ahead, and then ends in the same way. -/
theorem invocationsEnd : Obligations.InvocationsEnd := by
  refine ⟨fun s c hv hc hb hr => ?_, fun s c hv hc hb hp => ?_⟩
  all_goals have hc16 : c < 16 := hc.trans_le (numCtx_le hv)
  · obtain ⟨order, reo, hahead, hlen⟩ := exists_ahead hv (s.ctx c)
    obtain ⟨k, hk, y, es, e, ⟨hy, -⟩, -, hend, hbusy⟩ := SvcRuns.ends ⟨hc, hb, hr⟩ hc16 hahead
    refine ⟨k + 1, by omega, ?_, fun j hj => hbusy j (Nat.le_of_lt_succ hj)⟩
    rw [hend, invoked_ctx_same hc16]
    unfold finished
    generalize y.rem = left at hy ⊢
    rw [hy]
  · have hctx : (setCtx c (svcStarted (s.ctx c)) s).ctx c = svcStarted (s.ctx c) := setCtx_ctx_same hc16 _ _
    have hstart : svcStep c s = setCtx c (svcStarted (s.ctx c)) s :=
      (svcStep_of_pend hc hb hp).trans (startPending_eq c s)
    have hahead : Ahead s.cfg ((setCtx c (svcStarted (s.ctx c)) s).ctx c) (budgetedRings s.cfg (s.ctx c))
        ((s.ctx c).reoMask.getLsbD 0) := by
      rw [hctx]
      exact ahead_started s.cfg { s.ctx c with pend := false } .svc (s.ctx c).pendBudget
    obtain ⟨k, hk, y, es, e, hadv, hserves, hend, hbusy⟩ := (svcRuns_started hc hc16).ends hc16 hahead
    rw [hctx] at hadv hserves
    have hlen := budgetedRings_length_le hv (s.ctx c)
    have hfinished : finished y = servedCtx { s.ctx c with pend := false } (s.ctx c).pendBudget.toNat y.rem.toNat :=
      hadv.finished_started
    refine ⟨k + 2, _, es, y.rem.toNat, by omega, rfl, fun j hj hpos => ?_, hserves, ?_⟩
    · obtain ⟨j, rfl⟩ := Nat.exists_eq_succ_of_ne_zero hpos.ne'
      rw [Function.iterate_succ_apply, hstart]
      exact hbusy j (by omega)
    · rw [Function.iterate_succ_apply, hstart, hend, hfinished]
      refine ⟨rfl, invoked_ctx_same hc16 _ _ _ _, fun d hd => ?_, rfl⟩
      rw [invoked_ctx_other hd, setCtx_ctx_other hd.symm]

end Sys2Proof.Machine

namespace Sys2Proof.Machine

/-! ## Every command ends or is held (R253, R262, R297) -/

/-- The run of the command answers a state in which the command is complete (R92 (c)). -/
def Completes (i : Instr) (s : State) : Prop := ∃ t, exec i s = .next t ∧ t.seq.pos = .idle

theorem Completes.pos_idle {i : Instr} {s t : State} (h : Completes i s) (ht : exec i s = .next t) :
    t.seq.pos = .idle := by
  obtain ⟨u, hu, hidle⟩ := h
  cases hu.symm.trans ht
  exact hidle

theorem completes_of_complete {i : Instr} {s u : State} {e : Err} {r0 r1 : Word}
    (h : exec i s = .next (complete e r0 r1 u)) : Completes i s := ⟨_, h, rfl⟩

/-- A consistent machine at a command's start has it accepted with the operand sampled (R92 (a)). -/
theorem Consistent.accepted {s : State} (h : Consistent s) (hp : s.seq.pos = .start) : Accepted s (scalar s) := by
  obtain ⟨hseq, -⟩ := h
  unfold SeqOk at hseq
  rw [hp] at hseq
  obtain ⟨-, hcursor, hfailure⟩ := hseq
  exact ⟨hp, hcursor, hfailure, rfl⟩

theorem Consistent.begun {s : State} (h : Consistent s) (hp : s.seq.pos = .start) : Begun s :=
  ((consistent_iff s).mp h).2.begun hp

/-! ### `NOP` and the ring commands -/

theorem nop_completes {s : State} (hp : s.seq.pos = .start) : Completes .nop s := by
  obtain ⟨-, hnop⟩ := nopCompletes
  exact ⟨_, hnop s hp, rfl⟩

/-- `RING_SETUP` is refused, or ends after the answers of the allocator and the engine (R111, R112, R115). -/
theorem ringSetup_completes {s : State} (hs : Consistent s) (hp : s.seq.pos = .start) (k i o : Nat) :
    Completes (.ringSetup k i o) s := by
  have hacc : Accepted s (RingReq.mk k i o (scalar s)).entries := hs.accepted hp
  by_cases hbad : k = idleClass ∨ ringRequestOk s ⟨k, i, o, scalar s⟩ = false
  · exact completes_of_complete (exec_ringSetup_refused hacc hbad)
  · obtain ⟨hk, hrequest⟩ := not_or.mp hbad
    have hlegal : LegalSetup s ⟨k, i, o, scalar s⟩ := ⟨hacc, hk, Bool.eq_true_of_not_eq_false hrequest⟩
    obtain ⟨e, hnull⟩ | ⟨e, va, pa, -, hregion⟩ := hostAllocCoherent_cases (ringSize s.cfg k (scalar s)) s
    · exact completes_of_complete (hlegal.exec_null hnull)
    · obtain ⟨e', hreject⟩ | ⟨e', hnd, -, hregister⟩ := engRingRegister_cases ⟨k, i, o, scalar s⟩ _ _
      · exact completes_of_complete (hlegal.exec_rejected hregion hreject
          (List.mem_append_right _ (List.mem_singleton_self _)))
      · exact completes_of_complete (hlegal.exec_registered hregion hregister)

/-- A slot that does not exist is of an invalid class, or beyond its class's instances (R97). -/
theorem of_not_slotExists {c : Config} {k i : Nat} (h : ¬slotExists c k i = true) :
    (classOf c k).valid = false ∨ (classOf c k).maxInst ≤ i := by
  rw [slotExists, Bool.and_eq_true, decide_eq_true_eq, not_and_or, Bool.not_eq_true, Nat.not_lt] at h
  exact h

/-- `RING_CLEANUP` is refused, warns, or frees a ring that is on record, whose handle is registered and whose region is
live (R49, R118, R119). -/
theorem ringCleanup_completes {s : State} (hs : Consistent s) (hp : s.seq.pos = .start) (k i : Nat) :
    Completes (.ringCleanup k i) s := by
  have hbooks := (hs.begun hp).books
  by_cases hk : k = idleClass
  · exact ⟨_, ringCleanupConfigurationErrors s k i hp (.inl hk), rfl⟩
  by_cases hslot : slotExists s.cfg k i = true
  · cases hreg : (s.ring k i).registered with
    | false => exact ⟨_, ringCleanupOfUnregisteredRingWarns s k i hp hk hslot hreg, rfl⟩
    | true =>
      obtain ⟨hk16, hi8⟩ := slotExists_bounds hbooks.valid hslot
      obtain ⟨t, ht, -, -, hframe⟩ := ringCleanupFreesTheRing s k i hp hk hk16 hi8 hslot hreg
        (hbooks.handle_registered hreg) (hbooks.ring_live hreg)
      exact ⟨t, ht, by rw [hframe]⟩
  · exact ⟨_, ringCleanupConfigurationErrors s k i hp (.inr (of_not_slotExists hslot)), rfl⟩

/-! ### The pool commands -/

/-- `LINK_POOL_SETUP` without a plan is refused; with one it succeeds or is undone (R140, R153, R155). -/
theorem linkPoolSetup_completes {s : State} (hs : Consistent s) (hp : s.seq.pos = .start) :
    Completes .linkPoolSetup s := by
  by_cases hbad : s.pool.valid = true ∨ planTotal s.cfg (scalar s) = none
  · have hrefused : exec .linkPoolSetup s = .next (complete .configErr 0 0 s) := by
      rw [exec_linkPoolSetup_start hp, beginLinkPoolSetup_refused hbad, runSeq_complete]
    exact completes_of_complete hrefused
  · obtain ⟨hv, hplan⟩ := not_or.mp hbad
    obtain ⟨total, htotal⟩ := Option.ne_none_iff_exists'.mp hplan
    obtain ⟨t, es, ht, -, hend⟩ := exec_linkPoolSetup_ends hs (hs.accepted hp) (Bool.eq_false_iff.mpr hv) htotal
    have hseq : t.seq = {} := hend.elim Succeeded.seq Failed.seq
    exact ⟨t, ht, by rw [hseq]⟩

theorem linkPoolCleanup_completes {s : State} (hs : Consistent s) (hp : s.seq.pos = .start) :
    Completes .linkPoolCleanup s := by
  obtain ⟨t, ht, hframe, -⟩ := poolCleanupFreesEverything s _ hs (hs.accepted hp)
  exact ⟨t, ht, by rw [hframe]⟩

/-! ### The dispatcher commands and `SERVICE` -/

/-- `DISP_ATTACH` is refused, registers the table's sources, or creates the timer (R171, R173, R174). -/
theorem dispAttach_completes {s : State} (hv : configValid s.cfg = true) (hp : s.seq.pos = .start)
    (hlen : s.disp.irqReg.length ≤ 19) : Completes .dispAttach s := by
  cases ha : s.disp.attached with
  | true => exact ⟨_, attachWhenAttachedFails s hp ha, rfl⟩
  | false =>
    cases hm : s.mode with
    | event =>
      obtain ⟨t, hs, ht, -, -, -, -, -, hframe⟩ := attachRegistersEverySource s hv hp ha hm hlen
      exact ⟨t, ht, by rw [hframe]⟩
    | poll =>
      obtain ⟨n, hfuel⟩ := seqFuel_split (Nat.zero_le 19)
      have hbegin : exec .dispAttach s = runSeq (n + 2) (goto .timerInit (assignMasks (setOp .dispAttach s))) := by
        rw [exec_start hp, beginCommand_dispAttach_poll ha hm, hfuel, Nat.zero_add]
      exact ⟨_, hbegin.trans (runSeq_timerInit n _), rfl⟩

/-- `DISP_DETACH` completes, or waits for a busy context or for a poll pass (R183, R184). -/
theorem dispDetach_completes_or_waits {s t : State} (hv : configValid s.cfg = true) (hp : s.seq.pos = .start)
    (hlen : s.disp.irqReg.length ≤ 19) (ht : exec .dispDetach s = .next t) :
    t.seq.pos = .idle ∨ (t.seq.pos = .detachWait ∧ ∃ c < t.cfg.numCtx, (t.ctx c).busy = true) ∨
      (t.seq.pos = .timerStop ∧ t.disp.timer = .stopped) := by
  cases ha : s.disp.attached with
  | false => exact .inl (Completes.pos_idle ⟨_, detachWhenNotAttachedDoesNothing s hp ha, rfl⟩ ht)
  | true =>
    cases hm : s.mode with
    | event =>
      obtain ⟨hheld, hfree⟩ := detachFreesEverySource s hv hp ha hm hlen
      by_cases hbusy : ∃ c < s.cfg.numCtx, (s.ctx c).busy = true
      · obtain ⟨u, hu, -, hctx, hframe⟩ := hheld hbusy
        cases hu.symm.trans ht
        obtain ⟨c, hc, hb⟩ := hbusy
        refine .inr (.inl ⟨by rw [hframe], c, by rwa [hframe], ?_⟩)
        rw [hctx, if_pos hc]
        exact hb
      · have hidle (c : Nat) (hc : c < s.cfg.numCtx) : (s.ctx c).busy = false :=
          Bool.eq_false_iff.mpr fun hb => hbusy ⟨c, hc, hb⟩
        obtain ⟨u, hu, -, hframe⟩ := hfree hidle
        exact .inl (Completes.pos_idle ⟨u, hu, by rw [hframe]⟩ ht)
    | poll =>
      obtain ⟨hheld, hfree⟩ := detachStopsThePollTimer s hv hp ha hm
      by_cases hpass : s.disp.timer = .stopped
      · cases (hheld hpass).symm.trans ht
        exact .inr (.inr ⟨rfl, hpass⟩)
      · obtain ⟨u, hu, -, hframe⟩ := hfree hpass
        exact .inl (Completes.pos_idle ⟨u, hu, by rw [hframe]⟩ ht)

/-- `SERVICE` completes, or waits for its context to be idle (R190, R197). -/
theorem service_completes_or_waits {s t : State} (hs : Consistent s) (hp : s.seq.pos = .start) (c : Nat)
    (ht : exec (.service c) s = .next t) :
    t.seq.pos = .idle ∨ (t.seq.pos = .serviceClaim c ∧ (t.ctx c).busy = true) := by
  have hv := (hs.begun hp).books.valid
  by_cases hc : c < s.cfg.numCtx
  · cases hb : (s.ctx c).busy with
    | true =>
      obtain ⟨u, hu, -, hframe⟩ := serviceWaitsForABusyContext s c hp hc hb
      cases hu.symm.trans ht
      rw [hframe]
      exact .inr ⟨rfl, hb⟩
    | false =>
      obtain ⟨u, _, _, hu, -, -, -, -, hframe⟩ := serviceDrainsInPriorityOrder s _ c hv (hs.accepted hp) hc hb
      exact .inl (Completes.pos_idle ⟨u, hu, by rw [hframe]⟩ ht)
  · exact .inl (Completes.pos_idle ⟨_, serviceOfUnknownContextFails s c hp (Nat.le_of_not_lt hc), rfl⟩ ht)

/-- Settles O58: `DISP_DETACH` and `SERVICE` complete or wait, and every other command completes. -/
theorem commandsFinishOrAreHeld : Obligations.CommandsFinishOrAreHeld := by
  intro s t i hs hp hlen ht
  have hv := (hs.begun hp).books.valid
  cases i with
  | nop => exact .inl ((nop_completes hp).pos_idle ht)
  | ringSetup k i o => exact .inl ((ringSetup_completes hs hp k i o).pos_idle ht)
  | ringCleanup k i => exact .inl ((ringCleanup_completes hs hp k i).pos_idle ht)
  | linkPoolSetup => exact .inl ((linkPoolSetup_completes hs hp).pos_idle ht)
  | linkPoolCleanup => exact .inl ((linkPoolCleanup_completes hs hp).pos_idle ht)
  | dispAttach => exact .inl ((dispAttach_completes hv hp hlen).pos_idle ht)
  | dispDetach =>
    obtain hidle | ⟨hpos, hbusy⟩ | ⟨hpos, hpass⟩ := dispDetach_completes_or_waits hv hp hlen ht
    · exact .inl hidle
    · exact .inr (.inr (.inl ⟨rfl, hpos, hbusy⟩))
    · exact .inr (.inr (.inr ⟨rfl, hpos, hpass⟩))
  | service c =>
    obtain hidle | ⟨hpos, hbusy⟩ := service_completes_or_waits hs hp c ht
    · exact .inl hidle
    · exact .inr (.inl ⟨c, rfl, hpos, hbusy⟩)

end Sys2Proof.Machine
